-- ==== Sys2Proof/Word.lean ====
section
/-!
DEFINITION. The word types of the Harette H7, the two prefix payloads and the immediates an instruction carries, and the
plain data that the outside world hands to the machine with an event (an image, an assignment, a flit, a member's data).
-/

namespace Sys2Proof

/-- A scalar register, one lane of a vector register, an instruction word (03 R59, R70). -/
abbrev Word := BitVec 32

/-- One byte of memory. -/
abbrev Byte := BitVec 8

/-- An address, a program counter, a 64-bit element. -/
abbrev Dword := BitVec 64

/-- The MODW payload, field by field (03 R76). -/
structure Modw where
  guard : BitVec 4 := 0
  gneg  : Bool := false
  sat   : Bool := false
  nega  : Bool := false
  negb  : Bool := false
  absa  : Bool := false
  absb  : Bool := false
  psc   : BitVec 5 := 0
  str   : BitVec 4 := 0
  scope : BitVec 3 := 0
  rnd   : BitVec 2 := 0
  clamp : Bool := false
  deriving DecidableEq, Repr, Inhabited

/-- The MXW payload, field by field; its reserved bits are zero (03 R78). -/
structure Mxw where
  nega  : Bool := false
  negb  : Bool := false
  nacc  : Bool := false
  rel   : BitVec 3 := 0
  bias  : Bool := false
  act   : Bool := false
  atab  : BitVec 2 := 0
  rq    : Bool := false
  guard : BitVec 4 := 0
  deriving DecidableEq, Repr, Inhabited

/-- A value immediate of format I: sign-extended as it stands, or completed to 32 bits by an IMMX (03 R74, R79). -/
inductive Imm11 where
  | short (i : BitVec 11)
  | long  (v : Word)
  deriving DecidableEq, Repr

/-- A value immediate of format L: sign-extended as it stands, or completed to 32 bits by an IMMX (03 R74, R79). -/
inductive Imm18 where
  | short (i : BitVec 18)
  | long  (v : Word)
  deriving DecidableEq, Repr

/-- The 32-bit value of a format I immediate (03 R74, R79). -/
def Imm11.value : Imm11 → Word
  | .short i => i.signExtend 32
  | .long v => v

/-- The 32-bit value of a format L immediate (03 R74, R79). -/
def Imm18.value : Imm18 → Word
  | .short i => i.signExtend 32
  | .long v => v

/-- Why bytes are no instruction unit; every reason traps ILLEGAL (03 R75, R84). -/
inductive DecodeReject where
  /-- The bytes end before the unit does. -/
  | tooShort
  /-- A prefix word stands where R75 allows none. -/
  | prefixOrder
  /-- A reserved bit of a prefix payload is set (R78, R79). -/
  | prefixReserved
  /-- No entry defines the word: opcode, function code, reserved field or register field (R61, R84). -/
  | unassigned
  /-- The prefix words are not the ones this instruction accepts (R76, R78, R80). -/
  | prefixRefused
  /-- A field or a prefix field holds a value its entry does not admit (R61, R76, R84). -/
  | illFormed
  deriving DecidableEq, Repr

/-- A firmware image written to the device function: its security version, its SHAKE256 hash, and whether its XMSS
signature verifies under the key in ROM (20 R455; the hash and the verdict come from outside the machine). -/
structure Firmware where
  version : Word
  digest  : BitVec 256
  signed  : Bool
  deriving DecidableEq, Repr

/-- What a stage of bring-up brings from outside: the cause of its failure, and the fabric id that system software assigns (19 R429, 20 R443). -/
structure StageInput where
  cause    : Byte
  fabricId : BitVec 12
  deriving DecidableEq, Repr

/-- What system software assigns to a partition: clusters, memory quarters, copy engines and Abaja ports (19 R437). -/
structure Assignment where
  partition : Nat
  clusters  : List Nat
  quarters  : List Nat
  engines   : List Nat
  ports     : List Nat
  deriving DecidableEq, Repr

/-- What a tier-3 request from another device asks for (19 R431, R432). -/
inductive RemoteOp where
  | load (bytes : Nat)
  | store (data : List Byte)
  /-- An intrinsic request of an atomic: operation, type and its two operand words (12 R308). -/
  | atomic (op : BitVec 4) (type : BitVec 3) (op0 op1 : Word)
  /-- A request for a user method of the object (11 R286). -/
  | object (method : BitVec 7) (op0 op1 : Word) (post : Bool)
  /-- OBJBIND and OBJUNBIND of an object that lies on this device (11 R306): length, selector and method table. -/
  | bind (length selector : Word) (table : Dword)
  | unbind
  deriving DecidableEq, Repr

/-- A tier-3 request as it arrives: the requesting device, the address (a tier-0 physical address, or a virtual address when
it comes out of a hash window), and the requester bits and lane of its source id (19 R431, R432). -/
structure RemoteRequest where
  device    : BitVec 12
  isVirtual : Bool
  addr      : Dword
  op        : RemoteOp
  requester : BitVec 13
  lane      : BitVec 5
  /-- Base of the hash window of a virtual address (18 R423, 19 R431). -/
  window    : Dword := 0
  deriving DecidableEq, Repr

/-- What an answer to another device's request says (19 R431, R432): the bytes of a load, a store done, the two words of an atomic's or an object
request's reply, an error response (08 R223, 12 R313), or a refusal. -/
inductive Answer where
  | data (bytes : List Byte)
  | stored
  | words (w0 w1 : Word)
  | error
  | refused
  deriving DecidableEq, Repr

/-- An HDM decoder of a host port: its port and number there, the partition whose tier-0 memory it gives the host, the host addresses that it
decodes, and the tier-0 address of the first of them (19 R434). -/
structure HdmDecoder where
  port  : Nat
  num   : Nat
  part  : Nat
  base  : Nat
  size  : Nat
  start : Nat
  deriving DecidableEq, Repr

/-- Where a host access comes in: the partition's function, the host port, and the decoders of that port that the host has written since its last
access (19 R433, R434). -/
structure HostAccess where
  part     : Nat
  port     : Nat
  decoders : List HdmDecoder
  deriving DecidableEq, Repr

/-- What a received flit carries (19 R425, R426): a request on virtual lane 0, or bytes this model does not interpret. -/
inductive FlitBody where
  | request (r : RemoteRequest)
  | opaqueBytes (data : List Byte)
  deriving DecidableEq, Repr

/-- One flit as it arrives at a port: its virtual lane, its sequence number on that lane, whether its CRC is right, the acknowledgements
that come with it, by lane and number, and its body (19 R425, R426). -/
structure Flit where
  lane  : BitVec 2
  seq   : BitVec 12
  good  : Bool
  acks  : List (BitVec 2 × BitVec 12)
  body  : FlitBody
  deriving DecidableEq, Repr

/-- A collective command that another device has issued (19 R438 to R440): id, contents of its group table, index, kind, flags, member count,
block bytes, root, and the bytes of its send buffer.  The other devices are outside the machine, so this is an input. -/
structure Member where
  id    : BitVec 16
  group : List (BitVec 16)
  index : Nat
  kind  : Byte
  flags : Byte
  count : BitVec 16
  block : Dword
  root  : BitVec 16
  data  : List Byte
  deriving DecidableEq, Repr

end Sys2Proof
end

