-- ==== Sys2Proof/Config.lean ====
section
/-!
DEFINITION. The free values: what the spec leaves open although the machine goes on.  Each is a constant with no body, so no
proof can see what it is; it is applied to a plain counter of the state, or to the operands it depends on.
Each is declared in the assumption log.
-/

namespace Sys2Proof.Config

/-- The bytes of tier 0: 12 stacks of HBM4E, 768 GiB (01 R24).  That they answer to the addresses from 0 on is DEDUCED,
notes/assumptions/17.md. -/
def tier0Bytes : Nat := 824633720832

/-- A byte of a scratchpad slice that nothing has written since the team started (08 R210): by team and offset. -/
opaque sliceByte : Nat → Nat → Byte

/-- The result a special function's table holds, within its bound (07 R201): by function 0 to 7 and operand. -/
opaque special : Nat → Word → Word

/-- Whether an access uses the old translation before an invalidation ends (08 R219): by free-value counter. -/
opaque staleLeaf : Nat → Bool

/-- The cycles one turn of the machine takes (sys.clock, 06 R179): by step. -/
opaque turnCycles : Nat → Nat

/-- A byte of the opaque split table block of a group save record (03 R67): by save, group number and offset. -/
opaque splitByte : Nat → Nat → Nat → Byte

/-- Whether another device admits a tier-3 access (19 R431): by device id and location key. -/
opaque remoteAdmits : Nat → Nat → Bool

/-- The reply value and status of another device's home to an object request (19 R432): by free-value counter. -/
opaque remoteReply : Nat → Word × Byte

/-- The port through which a device that is no neighbour is reached; a number of no port means that none leads there (19 R429): by device. -/
opaque routePort : Nat → Nat

/-- The memory quarter that holds a 16-byte word of tier 0 (19 R437): by word. -/
opaque quarterOf : Nat → Nat

/-- Its number, 0 to 15 (19 R437). -/
def quarter (w : Nat) : Nat := quarterOf w % 16

/-- The compute die that owns a 16-byte word of memory, for the sharing of the phase version table (17 R401, 01 R18): four quarters to a die. -/
def dieOf (w : Nat) : Nat := quarter w / 4

/-- Whether a collective that is open has data on a port that goes down (19 R426): by free-value counter. -/
opaque collectiveOn : Nat → Bool

/-- Which of a partition's ports carries the data that a collective sends (19 R442): by free-value counter. -/
opaque collectivePort : Nat → Nat

/-- The check word of a spilled image (16 R390): by its content. -/
opaque checkWord {α : Type} : α → Word

/-- Which entry a full block translation cache gives up (10 R269): by free-value counter. -/
opaque cacheVictim : Nat → Nat

/-- The SHAKE256 hash of a partition configuration (20 R456): by its words. -/
opaque configDigest : List Nat → BitVec 256

/-- A byte of an attestation signature (20 R456): by signature index and offset. -/
opaque signatureByte : Nat → Nat → Byte

/-- The value of a snapshot register that counts what the model does not time (20 R454): by kind, unit, register and step. -/
opaque snapCount : Nat → Nat → Nat → Nat → Dword

/-- A scale byte or an element code that no rule gives: of a block whose elements come from blocks with different scales, and a tile
origin without a real position (10 R251, R255, R264): by free-value counter. -/
opaque openCode : Nat → Nat

/-- The flits that the receive buffer of a virtual lane holds (19 R427): by port and lane. -/
opaque laneBuffer : Nat → Nat → Nat

/-- Which of the cores that can take a team of an Ephemeris phase receives it (05 R123): by free-value counter. -/
opaque placeChoice : Nat → Nat

/-- Which of a partition's copy engines serves a copy queue (10 R262): by partition and queue. -/
opaque copyEngine : Nat → Nat → Nat

end Sys2Proof.Config
end

