-- ==== Sys2Proof/Syntax.lean ====
section
/-!
DEFINITION. The instructions and events of the Harette H7, one constructor per row of the opcode table.
An encoded instruction carries its operand fields at the widths of its encoding (a scalar pair by the number of its even
register halved, a scalar quad by the number of its first register divided by four), and its prefix words where its entry
accepts them (03 R75 to R80).  An event has no encoding; it carries which unit it happens at and the data that the outside
world supplies with it.
-/

namespace Sys2Proof

/-- One constructor per row of the opcode table, encoded instructions first, in the order of their opcodes. -/
inductive Instr where
  /-- `NOP` (R172): No effect. -/
  | nop
  /-- `BRA` (R161): Conditional or unconditional branch under the cond modes, which may split the fragment. -/
  | bra (p : BitVec 4) (n : BitVec 1) (m : BitVec 2) (o : BitVec 18)
  /-- `BRX` (R162): Indirect jump to a scalar-pair address for the whole fragment. -/
  | brx (a : BitVec 5)
  /-- `CALL` (R161): Branch as BRA, writing the link to s63. -/
  | call (p : BitVec 4) (n : BitVec 1) (m : BitVec 2) (o : BitVec 18)
  /-- `RET` (R162): Jump to the 32-bit link held in a scalar, within the current 4 GiB region. -/
  | ret (a : BitVec 6)
  /-- `JSET` (R164): Set the fragment's pending join address. -/
  | jset (o : BitVec 18)
  /-- `DBRA` (R163): Decrement a scalar and branch uniformly while it is nonzero. -/
  | dbra (d : BitVec 6) (i : BitVec 18)
  /-- `EXIT` (R169): Retire the whole group. -/
  | exit
  /-- `YCHK` (R171): Yield check: stop here if a stop is pending, after outstanding results land. -/
  | ychk
  /-- `RGN` (R166): Start a region and stage the masked vector granules. -/
  | rgn (m : BitVec 16)
  /-- `RGN_SP` (R166): Start a region and stage granules, scalars and predicates. -/
  | rgnSp (m : BitVec 16)
  /-- `TRAP` (R384): Raise SWTRAP with an 18-bit code. -/
  | trap (c : BitVec 18)
  /-- `TRET` (R385): End the handler and resume at the resume PC. -/
  | tret
  /-- `TRET_REGION` (R385): End the handler and restart the faulting fragment's region. -/
  | tretRegion
  /-- `TRET_ADDR` (R385): End the handler and resume at a scalar-pair address. -/
  | tretAddr (a : BitVec 5)
  /-- `BRK` (R384): Raise BRK with an 18-bit code. -/
  | brk (c : BitVec 18)
  /-- `WBASE` (R63): Set the vector window base to 8 × imm11. -/
  | wbase (i : BitVec 11)
  /-- `SADD` (R173): Scalar add modulo 2^32. -/
  | sadd (d a b : BitVec 6)
  /-- `SSUB` (R173): Scalar subtract. -/
  | ssub (d a b : BitVec 6)
  /-- `SMUL` (R173): Scalar multiply, low 32 bits. -/
  | smul (d a b : BitVec 6)
  /-- `SMULHU` (R173): Scalar unsigned multiply, high 32 bits. -/
  | smulhu (d a b : BitVec 6)
  /-- `SMULHS` (R173): Scalar signed multiply, high 32 bits. -/
  | smulhs (d a b : BitVec 6)
  /-- `SAND` (R173): Scalar AND. -/
  | sand (d a b : BitVec 6)
  /-- `SOR` (R173): Scalar OR. -/
  | sor (d a b : BitVec 6)
  /-- `SXOR` (R173): Scalar XOR. -/
  | sxor (d a b : BitVec 6)
  /-- `SSHL` (R173): Scalar shift left. -/
  | sshl (d a b : BitVec 6)
  /-- `SSHR` (R173): Scalar logical shift right. -/
  | sshr (d a b : BitVec 6)
  /-- `SSRA` (R173): Scalar arithmetic shift right. -/
  | ssra (d a b : BitVec 6)
  /-- `SMIN` (R173): Scalar signed minimum. -/
  | smin (d a b : BitVec 6)
  /-- `SMAX` (R173): Scalar signed maximum. -/
  | smax (d a b : BitVec 6)
  /-- `SMINU` (R173): Scalar unsigned minimum. -/
  | sminu (d a b : BitVec 6)
  /-- `SMAXU` (R173): Scalar unsigned maximum. -/
  | smaxu (d a b : BitVec 6)
  /-- `SANDN` (R173): Scalar AND NOT. -/
  | sandn (d a b : BitVec 6)
  /-- `SADDI` (R174): Scalar add of a value immediate. -/
  | saddi (d a : BitVec 6) (i : Imm11)
  /-- `SANDI` (R174): Scalar AND with a value immediate. -/
  | sandi (d a : BitVec 6) (i : Imm11)
  /-- `SORI` (R174): Scalar OR with a value immediate. -/
  | sori (d a : BitVec 6) (i : Imm11)
  /-- `SXORI` (R174): Scalar XOR with a value immediate. -/
  | sxori (d a : BitVec 6) (i : Imm11)
  /-- `SSHLI` (R174): Scalar shift left by an immediate. -/
  | sshli (d a : BitVec 6) (i : BitVec 5)
  /-- `SSHRI` (R174): Scalar logical shift right by an immediate. -/
  | sshri (d a : BitVec 6) (i : BitVec 5)
  /-- `SSRAI` (R174): Scalar arithmetic shift right by an immediate. -/
  | ssrai (d a : BitVec 6) (i : BitVec 5)
  /-- `SLI` (R174): Load a scalar with a value immediate. -/
  | sli (d : BitVec 6) (i : Imm18)
  /-- `SCLZ` (R175): Count leading zeros of a scalar. -/
  | sclz (d a : BitVec 6)
  /-- `SPOPC` (R175): Count the one bits of a scalar. -/
  | spopc (d a : BitVec 6)
  /-- `SBREV` (R175): Reverse the bits of a scalar. -/
  | sbrev (d a : BitVec 6)
  /-- `SSXB` (R175): Sign-extend the low byte of a scalar. -/
  | ssxb (d a : BitVec 6)
  /-- `SSXH` (R175): Sign-extend the low half of a scalar. -/
  | ssxh (d a : BitVec 6)
  /-- `SMOV` (R175): Copy a scalar. -/
  | smov (d a : BitVec 6)
  /-- `SSETP` (R176): Compare scalars and write the result to the fragment's lanes of a predicate. -/
  | ssetp (d : BitVec 4) (a b : BitVec 6) (r : BitVec 4)
  /-- `SRSYS` (R179): Read a system register into a scalar or pair. -/
  | srsys (d : BitVec 6) (n : BitVec 11)
  /-- `SWSYS` (R179): Write a scalar or pair to a writable system register. -/
  | swsys (a : BitVec 6) (n : BitVec 11)
  /-- `SMOVV` (R178): Move one lane of a vector into a scalar. -/
  | smovv (d : BitVec 6) (a : BitVec 7) (b : BitVec 6)
  /-- `SSEL` (R177): Select a scalar by a predicate in the lowest lane of the fragment. -/
  | ssel (d a b : BitVec 6) (p : BitVec 4)
  /-- `VADD` (R185): Vector add per lane. -/
  | vadd (px : Option Modw) (d a b : BitVec 7)
  /-- `VSUB` (R185): Vector subtract. -/
  | vsub (px : Option Modw) (d a b : BitVec 7)
  /-- `VMUL` (R185): Vector multiply, low bits or scaled. -/
  | vmul (px : Option Modw) (d a b : BitVec 7)
  /-- `VMULHU` (R185): Vector unsigned multiply, high bits. -/
  | vmulhu (px : Option Modw) (d a b : BitVec 7)
  /-- `VMULHS` (R185): Vector signed multiply, high bits. -/
  | vmulhs (px : Option Modw) (d a b : BitVec 7)
  /-- `VAND` (R185): Vector AND. -/
  | vand (px : Option Modw) (d a b : BitVec 7)
  /-- `VOR` (R185): Vector OR. -/
  | vor (px : Option Modw) (d a b : BitVec 7)
  /-- `VXOR` (R185): Vector XOR. -/
  | vxor (px : Option Modw) (d a b : BitVec 7)
  /-- `VSHL` (R185): Vector shift left. -/
  | vshl (px : Option Modw) (d a b : BitVec 7)
  /-- `VSHR` (R185): Vector logical shift right. -/
  | vshr (px : Option Modw) (d a b : BitVec 7)
  /-- `VSRA` (R185): Vector arithmetic shift right. -/
  | vsra (px : Option Modw) (d a b : BitVec 7)
  /-- `VMIN` (R185): Vector signed minimum. -/
  | vmin (px : Option Modw) (d a b : BitVec 7)
  /-- `VMAX` (R185): Vector signed maximum. -/
  | vmax (px : Option Modw) (d a b : BitVec 7)
  /-- `VMINU` (R185): Vector unsigned minimum. -/
  | vminu (px : Option Modw) (d a b : BitVec 7)
  /-- `VMAXU` (R185): Vector unsigned maximum. -/
  | vmaxu (px : Option Modw) (d a b : BitVec 7)
  /-- `VANDN` (R185): Vector AND NOT. -/
  | vandn (px : Option Modw) (d a b : BitVec 7)
  /-- `VADDH2` (R186): Packed 16-bit add. -/
  | vaddh2 (px : Option Modw) (d a b : BitVec 7)
  /-- `VSUBH2` (R186): Packed 16-bit subtract. -/
  | vsubh2 (px : Option Modw) (d a b : BitVec 7)
  /-- `VMULH2` (R186): Packed 16-bit multiply. -/
  | vmulh2 (px : Option Modw) (d a b : BitVec 7)
  /-- `VMINH2` (R186): Packed 16-bit signed minimum. -/
  | vminh2 (px : Option Modw) (d a b : BitVec 7)
  /-- `VMAXH2` (R186): Packed 16-bit signed maximum. -/
  | vmaxh2 (px : Option Modw) (d a b : BitVec 7)
  /-- `VMINUH2` (R186): Packed 16-bit unsigned minimum. -/
  | vminuh2 (px : Option Modw) (d a b : BitVec 7)
  /-- `VMAXUH2` (R186): Packed 16-bit unsigned maximum. -/
  | vmaxuh2 (px : Option Modw) (d a b : BitVec 7)
  /-- `VMAD` (R187): Multiply and accumulate into the destination, i32 or n32. -/
  | vmad (px : Option Modw) (d a b : BitVec 7) (t : BitVec 1)
  /-- `VADDI` (R188): Vector add of a value immediate. -/
  | vaddi (px : Option Modw) (d a : BitVec 7) (i : Imm11)
  /-- `VANDI` (R188): Vector AND with a value immediate. -/
  | vandi (px : Option Modw) (d a : BitVec 7) (i : Imm11)
  /-- `VSHLI` (R188): Vector shift left by an immediate. -/
  | vshli (px : Option Modw) (d a : BitVec 7) (i : BitVec 5)
  /-- `VSHRI` (R188): Vector logical shift right by an immediate. -/
  | vshri (px : Option Modw) (d a : BitVec 7) (i : BitVec 5)
  /-- `VSRAI` (R188): Vector arithmetic shift right by an immediate. -/
  | vsrai (px : Option Modw) (d a : BitVec 7) (i : BitVec 5)
  /-- `VCLZ` (R189): Vector count leading zeros. -/
  | vclz (px : Option Modw) (d a : BitVec 7)
  /-- `VPOPC` (R189): Vector population count. -/
  | vpopc (px : Option Modw) (d a : BitVec 7)
  /-- `VBREV` (R189): Vector bit reverse. -/
  | vbrev (px : Option Modw) (d a : BitVec 7)
  /-- `VMOV` (R189): Vector copy. -/
  | vmov (px : Option Modw) (d a : BitVec 7)
  /-- `VNOT` (R189): Vector complement. -/
  | vnot (px : Option Modw) (d a : BitVec 7)
  /-- `VIABS` (R189): Vector integer absolute value. -/
  | viabs (px : Option Modw) (d a : BitVec 7)
  /-- `VINEG` (R189): Vector integer negation. -/
  | vineg (px : Option Modw) (d a : BitVec 7)
  /-- `VBFEU` (R190): Extract an unsigned bit field. -/
  | vbfeu (px : Option Modw) (d a b : BitVec 7)
  /-- `VBFES` (R190): Extract a signed bit field. -/
  | vbfes (px : Option Modw) (d a b : BitVec 7)
  /-- `VBFI` (R190): Insert a bit field. -/
  | vbfi (px : Option Modw) (d a b : BitVec 7)
  /-- `VPERMB` (R191): Byte permute from a vector pair. -/
  | vpermb (px : Option Modw) (d a b : BitVec 7)
  /-- `VPERMB_N4` (R191): Nibble permute from a vector. -/
  | vpermbN4 (px : Option Modw) (d a b : BitVec 7)
  /-- `VSETP` (R192): Vector integer compare into a predicate. -/
  | vsetp (px : Option Modw) (d : BitVec 4) (a b : BitVec 7) (r : BitVec 4)
  /-- `VSEL` (R193): Select per lane by a predicate. -/
  | vsel (px : Option Modw) (d a b : BitVec 7) (p : BitVec 4)
  /-- `VMOVS` (R194): Broadcast a scalar to the active lanes. -/
  | vmovs (px : Option Modw) (d : BitVec 7) (a : BitVec 6)
  /-- `VINS` (R194): Insert a scalar into one lane. -/
  | vins (px : Option Modw) (d : BitVec 7) (a b : BitVec 6)
  /-- `VLANE` (R194): Write each lane's number. -/
  | vlane (px : Option Modw) (d : BitVec 7)
  /-- `VMOVXR` (R195): Read a register indexed by a scalar. -/
  | vmovxr (px : Option Modw) (d : BitVec 7) (a : BitVec 6)
  /-- `VMOVXW` (R195): Write a register indexed by a scalar. -/
  | vmovxw (px : Option Modw) (a : BitVec 6) (b : BitVec 7)
  /-- `VFADD` (R196): Float add, f32 or f64. -/
  | vfadd (px : Option Modw) (d a b : BitVec 7) (w : BitVec 1)
  /-- `VFSUB` (R196): Float subtract. -/
  | vfsub (px : Option Modw) (d a b : BitVec 7) (w : BitVec 1)
  /-- `VFMUL` (R196): Float multiply. -/
  | vfmul (px : Option Modw) (d a b : BitVec 7) (w : BitVec 1)
  /-- `VFMIN` (R196): Float minimum, NaN-propagating. -/
  | vfmin (px : Option Modw) (d a b : BitVec 7) (w : BitVec 1)
  /-- `VFMAX` (R196): Float maximum, NaN-propagating. -/
  | vfmax (px : Option Modw) (d a b : BitVec 7) (w : BitVec 1)
  /-- `VFMINN` (R196): Float minimum, number-preferring. -/
  | vfminn (px : Option Modw) (d a b : BitVec 7) (w : BitVec 1)
  /-- `VFMAXN` (R196): Float maximum, number-preferring. -/
  | vfmaxn (px : Option Modw) (d a b : BitVec 7) (w : BitVec 1)
  /-- `VFSGN` (R196): Copy the sign of b onto a. -/
  | vfsgn (px : Option Modw) (d a b : BitVec 7) (w : BitVec 1)
  /-- `VFMA` (R197): Fused multiply-add with one rounding. -/
  | vfma (px : Option Modw) (d a b : BitVec 7) (w : BitVec 1)
  /-- `VFSETP` (R198): Float compare into a predicate. -/
  | vfsetp (px : Option Modw) (d : BitVec 4) (a b : BitVec 7) (w : BitVec 1) (r : BitVec 3)
  /-- `VFRCP` (R201): Reciprocal from a fixed table; long-latency. -/
  | vfrcp (px : Option Modw) (d a : BitVec 7) (l : BitVec 4)
  /-- `VFRSQ` (R201): Reciprocal square root. -/
  | vfrsq (px : Option Modw) (d a : BitVec 7) (l : BitVec 4)
  /-- `VFSQRT` (R201): Square root, correctly rounded. -/
  | vfsqrt (px : Option Modw) (d a : BitVec 7) (l : BitVec 4)
  /-- `VFEXP2` (R201): Power of two. -/
  | vfexp2 (px : Option Modw) (d a : BitVec 7) (l : BitVec 4)
  /-- `VFLOG2` (R201): Base-2 logarithm. -/
  | vflog2 (px : Option Modw) (d a : BitVec 7) (l : BitVec 4)
  /-- `VFSIN` (R201): Sine of an argument in revolutions. -/
  | vfsin (px : Option Modw) (d a : BitVec 7) (l : BitVec 4)
  /-- `VFCOS` (R201): Cosine of an argument in revolutions. -/
  | vfcos (px : Option Modw) (d a : BitVec 7) (l : BitVec 4)
  /-- `VFTANH` (R201): Hyperbolic tangent. -/
  | vftanh (px : Option Modw) (d a : BitVec 7) (l : BitVec 4)
  /-- `VCVT` (R238): Convert one element per lane under a conversion code. -/
  | vcvt (px : Option Modw) (d a c : BitVec 7)
  /-- `VFCLASS` (R199): Write a one-hot class word. -/
  | vfclass (px : Option Modw) (d a : BitVec 7) (t : BitVec 2)
  /-- `VHADD` (R200): Packed f16 or bf16 add. -/
  | vhadd (px : Option Modw) (d a b : BitVec 7) (w : BitVec 1)
  /-- `VHSUB` (R200): Packed half subtract. -/
  | vhsub (px : Option Modw) (d a b : BitVec 7) (w : BitVec 1)
  /-- `VHMUL` (R200): Packed half multiply. -/
  | vhmul (px : Option Modw) (d a b : BitVec 7) (w : BitVec 1)
  /-- `VHFMA` (R200): Packed half fused multiply-add. -/
  | vhfma (px : Option Modw) (d a b : BitVec 7) (w : BitVec 1)
  /-- `VHMIN` (R200): Packed half minimum. -/
  | vhmin (px : Option Modw) (d a b : BitVec 7) (w : BitVec 1)
  /-- `VHMAX` (R200): Packed half maximum. -/
  | vhmax (px : Option Modw) (d a b : BitVec 7) (w : BitVec 1)
  /-- `VDOT` (R244): Packed dot product accumulated into the destination. -/
  | vdot (px : Option Modw) (d a b : BitVec 7) (f : BitVec 4)
  /-- `VUNPK` (R241): Unpack packed narrow elements to f32 through a format slot. -/
  | vunpk (px : Option Modw) (d a b : BitVec 7) (s : BitVec 3)
  /-- `VPACK` (R242): Pack f32 values into narrow elements through a format slot. -/
  | vpack (px : Option Modw) (d a b : BitVec 7) (s : BitVec 3)
  /-- `VQNT` (R246): Stochastically quantise to a slot format. -/
  | vqnt (px : Option Modw) (d a b : BitVec 7) (s : BitVec 3)
  /-- `VQNT_SCALE` (R247): Compute the e8 scale code for a magnitude. -/
  | vqntScale (px : Option Modw) (d a : BitVec 7) (s : BitVec 3)
  /-- `RNGC` (R248): Evaluate the coordinate generator per lane; long-latency. -/
  | rngc (px : Option Modw) (d a : BitVec 7) (b : BitVec 5) (l : BitVec 4)
  /-- `VCONF` (R203): Mark earlier equal lanes and first occurrences. -/
  | vconf (px : Option Modw) (d a : BitVec 7) (p : BitVec 4)
  /-- `VSHFL` (R202): Shuffle by a per-lane index. -/
  | vshfl (px : Option Modw) (d a b : BitVec 7)
  /-- `VSHFLX` (R202): Shuffle by XOR of the lane number. -/
  | vshflx (px : Option Modw) (d a : BitVec 7) (k : BitVec 5)
  /-- `VSHFLU` (R202): Shuffle up by k lanes. -/
  | vshflu (px : Option Modw) (d a : BitVec 7) (k : BitVec 5)
  /-- `VSHFLD` (R202): Shuffle down by k lanes. -/
  | vshfld (px : Option Modw) (d a : BitVec 7) (k : BitVec 5)
  /-- `VRED` (R206): Reduce the active lanes by a fixed pairwise tree; long-latency. -/
  | vred (px : Option Modw) (d a : BitVec 7) (o t : BitVec 3) (l : BitVec 4)
  /-- `VSCAN` (R207): Inclusive scan in five fixed steps. -/
  | vscan (px : Option Modw) (d a : BitVec 7) (o t : BitVec 3) (l : BitVec 4)
  /-- `VSCANX` (R207): Exclusive scan. -/
  | vscanx (px : Option Modw) (d a : BitVec 7) (o t : BitVec 3) (l : BitVec 4)
  /-- `PAND` (R180): Predicate AND. -/
  | pand (px : Option Modw) (d a b : BitVec 4)
  /-- `POR` (R180): Predicate OR. -/
  | por (px : Option Modw) (d a b : BitVec 4)
  /-- `PXOR` (R180): Predicate XOR. -/
  | pxor (px : Option Modw) (d a b : BitVec 4)
  /-- `PANDN` (R180): Predicate AND NOT. -/
  | pandn (px : Option Modw) (d a b : BitVec 4)
  /-- `PORN` (R180): Predicate OR NOT. -/
  | porn (px : Option Modw) (d a b : BitVec 4)
  /-- `PNOT` (R180): Predicate NOT. -/
  | pnot (px : Option Modw) (d a : BitVec 4)
  /-- `PFROMS` (R180): Predicate from scalar bits. -/
  | pfroms (px : Option Modw) (d : BitVec 4) (a : BitVec 6)
  /-- `PTOS` (R180): Scalar from predicate lanes. -/
  | ptos (d : BitVec 6) (a : BitVec 4)
  /-- `PPOPC` (R180): Count the true lanes of the fragment. -/
  | ppopc (d : BitVec 6) (a : BitVec 4)
  /-- `PANY` (R180): Whether any lane of the fragment is true. -/
  | pany (px : Option Modw) (d a : BitVec 4)
  /-- `PALL` (R180): Whether all lanes of the fragment are true. -/
  | pall (px : Option Modw) (d a : BitVec 4)
  /-- `PFIRST` (R180): Mark the lowest active true lane. -/
  | pfirst (px : Option Modw) (d a : BitVec 4)
  /-- `LD8U` (R226): Load a byte, zero-extended; long-latency. -/
  | ld8u (px : Option Modw) (d : BitVec 7) (am : BitVec 1) (a : BitVec 6) (b : BitVec 7) (l : BitVec 4)
  /-- `LD8S` (R226): Load a byte, sign-extended. -/
  | ld8s (px : Option Modw) (d : BitVec 7) (am : BitVec 1) (a : BitVec 6) (b : BitVec 7) (l : BitVec 4)
  /-- `LD16U` (R226): Load a half, zero-extended. -/
  | ld16u (px : Option Modw) (d : BitVec 7) (am : BitVec 1) (a : BitVec 6) (b : BitVec 7) (l : BitVec 4)
  /-- `LD16S` (R226): Load a half, sign-extended. -/
  | ld16s (px : Option Modw) (d : BitVec 7) (am : BitVec 1) (a : BitVec 6) (b : BitVec 7) (l : BitVec 4)
  /-- `LD32` (R226): Load a word per lane. -/
  | ld32 (px : Option Modw) (d : BitVec 7) (am : BitVec 1) (a : BitVec 6) (b : BitVec 7) (l : BitVec 4)
  /-- `LD64` (R226): Load a doubleword into a pair. -/
  | ld64 (px : Option Modw) (d : BitVec 7) (am : BitVec 1) (a : BitVec 6) (b : BitVec 7) (l : BitVec 4)
  /-- `LD128` (R226): Load 16 bytes into a quad. -/
  | ld128 (px : Option Modw) (d : BitVec 7) (am : BitVec 1) (a : BitVec 6) (b : BitVec 7) (l : BitVec 4)
  /-- `ST8` (R227): Store a byte per lane, optionally release or streaming. -/
  | st8 (px : Option Modw) (d : BitVec 7) (am : BitVec 1) (a : BitVec 6) (b : BitVec 7) (s r : BitVec 1)
  /-- `ST16` (R227): Store a half. -/
  | st16 (px : Option Modw) (d : BitVec 7) (am : BitVec 1) (a : BitVec 6) (b : BitVec 7) (s r : BitVec 1)
  /-- `ST32` (R227): Store a word. -/
  | st32 (px : Option Modw) (d : BitVec 7) (am : BitVec 1) (a : BitVec 6) (b : BitVec 7) (s r : BitVec 1)
  /-- `ST64` (R227): Store a pair. -/
  | st64 (px : Option Modw) (d : BitVec 7) (am : BitVec 1) (a : BitVec 6) (b : BitVec 7) (s r : BitVec 1)
  /-- `ST128` (R227): Store a quad. -/
  | st128 (px : Option Modw) (d : BitVec 7) (am : BitVec 1) (a : BitVec 6) (b : BitVec 7) (s r : BitVec 1)
  /-- `LDS32` (R230): Load a word from the scratchpad slice. -/
  | lds32 (px : Option Modw) (d : BitVec 7) (a : BitVec 6) (b : BitVec 7) (l : BitVec 4)
  /-- `LDS64` (R230): Load a pair from the slice. -/
  | lds64 (px : Option Modw) (d : BitVec 7) (a : BitVec 6) (b : BitVec 7) (l : BitVec 4)
  /-- `LDS128` (R230): Load a quad from the slice. -/
  | lds128 (px : Option Modw) (d : BitVec 7) (a : BitVec 6) (b : BitVec 7) (l : BitVec 4)
  /-- `STS32` (R230): Store a word to the slice. -/
  | sts32 (px : Option Modw) (d : BitVec 7) (a : BitVec 6) (b : BitVec 7)
  /-- `STS64` (R230): Store a pair to the slice. -/
  | sts64 (px : Option Modw) (d : BitVec 7) (a : BitVec 6) (b : BitVec 7)
  /-- `STS128` (R230): Store a quad to the slice. -/
  | sts128 (px : Option Modw) (d : BitVec 7) (a : BitVec 6) (b : BitVec 7)
  /-- `PLD` (R231): Read n planes of 32 plane-tensor elements as one unit. -/
  | pld (px : Option Modw) (d : BitVec 7) (a : BitVec 5) (n : BitVec 3) (r : BitVec 1) (l : BitVec 4)
  /-- `PST` (R232): Write the leading n planes of 32 elements as one commit unit. -/
  | pst (px : Option Modw) (d : BitVec 7) (a : BitVec 5) (n : BitVec 3)
  /-- `ATOM` (R309): Send an atomic request per lane to its element's home and await old and new values. -/
  | atom (px : Option Modw) (d a : BitVec 7) (o : BitVec 4) (t : BitVec 3) (l : BitVec 4)
  /-- `RED` (R310): Atomic update with no result. -/
  | red (px : Option Modw) (d a : BitVec 7) (o : BitVec 4) (t : BitVec 3)
  /-- `OBJCALL` (R305): Send a method request per lane to the object's home and await replies. -/
  | objcall (px : Option Modw) (d a m : BitVec 7) (l : BitVec 4)
  /-- `OBJPOST` (R305): Send method requests without replies. -/
  | objpost (px : Option Modw) (d a m : BitVec 7)
  /-- `OBJBIND` (R306): Send a bind request for an object and receive a status. -/
  | objbind (d : BitVec 6) (a b : BitVec 5)
  /-- `OBJUNBIND` (R306): Send an unbind request and receive a status. -/
  | objunbind (d : BitVec 6) (a : BitVec 5)
  /-- `CRET` (R295): End a batch: commit the store buffer and reply values and statuses. -/
  | cret (d a : BitVec 7)
  /-- `CABORT` (R295): End a batch, discarding the buffer, and reply statuses. -/
  | cabort (a : BitVec 7)
  /-- `WAITV` (R320): Read a word and park until it satisfies a relation. -/
  | waitv (px : Option Modw) (d : BitVec 6) (a : BitVec 5) (w : BitVec 1) (r : BitVec 4)
  /-- `BARA` (R317): Arrive at a barrier word and receive a phase token. -/
  | bara (px : Option Modw) (d a : BitVec 6)
  /-- `BARW` (R317): Park until the barrier phase passes a token. -/
  | barw (px : Option Modw) (a b : BitVec 6)
  /-- `BARAW` (R317): Arrive, then wait for the phase. -/
  | baraw (px : Option Modw) (d a : BitVec 6)
  /-- `BARI` (R317): Arm or initialise a barrier word with a count. -/
  | bari (px : Option Modw) (a b : BitVec 6)
  /-- `FENCE_ACQ` (R335): Acquire fence on one stream. -/
  | fenceAcq (px : Option Modw)
  /-- `FENCE_REL` (R335): Release fence on one stream. -/
  | fenceRel (px : Option Modw)
  /-- `FENCE_FULL` (R335): Full fence on one stream. -/
  | fenceFull (px : Option Modw)
  /-- `XFENCE_ACQ` (R335): Acquire fence joining the masked streams. -/
  | xfenceAcq (px : Option Modw) (m : BitVec 16)
  /-- `XFENCE_REL` (R335): Release fence joining the masked streams. -/
  | xfenceRel (px : Option Modw) (m : BitVec 16)
  /-- `XFENCE_FULL` (R335): Full fence joining the masked streams. -/
  | xfenceFull (px : Option Modw) (m : BitVec 16)
  /-- `DEQ` (R142): Take the head item of a work queue, parking while it is empty. -/
  | deq (px : Option Modw) (d : BitVec 4) (a : BitVec 6) (l : BitVec 4)
  /-- `ENQ` (R143): Append one item per active lane to a work queue. -/
  | enq (px : Option Modw) (d : BitVec 7) (a : BitVec 6)
  /-- `DEQT` (R142): Try to take an item without parking and report it in a predicate. -/
  | deqt (px : Option Modw) (d : BitVec 4) (a : BitVec 6) (p : BitVec 4)
  /-- `LAUNCH` (R140): Submit a copy of a launch record to a launch queue. -/
  | launch (px : Option Modw) (d a : BitVec 5) (b : BitVec 6)
  /-- `LAUNCHI` (R140): Submit a launch record as indirect. -/
  | launchi (px : Option Modw) (d a : BitVec 5) (b : BitVec 6)
  /-- `CWAIT` (R141): Park until a grid, or all grids the team launched, have retired. -/
  | cwait (px : Option Modw) (a : BitVec 6)
  /-- `GANGSET` (R144): Write the gang register after pending rendezvous have passed. -/
  | gangset (a : BitVec 5)
  /-- `MMA` (R355): Queue a matrix multiply-accumulate from two streams. -/
  | mma (px : Option Mxw) (d : BitVec 5) (a b : BitVec 4) (s : BitVec 3)
  /-- `MMA_GANG` (R351): Queue a joint matrix command through the gang's rendezvous latch. -/
  | mmaGang (px : Option Mxw) (d : BitVec 5) (a b : BitVec 4) (s : BitVec 3)
  /-- `MMAS` (R373): Queue an attention score command producing p6 probabilities and row statistics. -/
  | mmas (px : Option Mxw) (d : BitVec 5) (a b : BitVec 4) (s : BitVec 3)
  /-- `MMAP` (R375): Queue a rescale-and-accumulate of P·V. -/
  | mmap (px : Option Mxw) (d : BitVec 5) (b : BitVec 4) (s : BitVec 3)
  /-- `MTR` (R356): Queue bias, activation and requantise of accumulators into a scratchpad tile. -/
  | mtr (px : Option Mxw) (d : BitVec 5) (a b : BitVec 4) (s : BitVec 3)
  /-- `MZERO` (R359): Zero the output tiles. -/
  | mzero (px : Option Mxw) (d : BitVec 5)
  /-- `MLDA` (R359): Load accumulator tiles from the slice. -/
  | mlda (px : Option Mxw) (d : BitVec 5)
  /-- `MSTA` (R359): Store accumulator tiles to the slice. -/
  | msta (px : Option Mxw) (d : BitVec 5)
  /-- `MNORM` (R359): Divide each row by its running sum, zeroing empty rows. -/
  | mnorm (px : Option Mxw) (d : BitVec 5)
  /-- `MBATCH` (R353): Close the group's issued matrix commands into a numbered batch. -/
  | mbatch (d : BitVec 6)
  /-- `MWAIT` (R354): Park until a batch and all earlier batches are complete. -/
  | mwait (px : Option Modw) (a : BitVec 6)
  /-- `MLBL` (R371): Load a relation word into a team relation slot. -/
  | mlbl (px : Option Modw) (d : BitVec 3) (a : BitVec 5)
  /-- `MSTAT_MAX` (R360): Read the row maxima of a statistics tile. -/
  | mstatMax (px : Option Modw) (d : BitVec 7) (a : BitVec 6)
  /-- `MSTAT_SUM` (R360): Read the row sums. -/
  | mstatSum (px : Option Modw) (d : BitVec 7) (a : BitVec 6)
  /-- `MSTAT_FLAGS` (R360): Read the row flags. -/
  | mstatFlags (px : Option Modw) (d : BitVec 7) (a : BitVec 6)
  /-- `MSTAT_SKIP` (R360): Read the skip count. -/
  | mstatSkip (px : Option Modw) (d : BitVec 7) (a : BitVec 6)
  /-- `HBIND` (R274): Bind a tile handle to a shape record and a stream or tile destination. -/
  | hbind (px : Option Modw) (d : BitVec 4) (a : BitVec 5) (b : BitVec 6)
  /-- `FEED` (R275): Queue a window on a handle's feeder and return its sequence number. -/
  | feed (px : Option Modw) (d : BitVec 6) (a b : BitVec 4) (c t : BitVec 1)
  /-- `FEED_WB` (R275): Queue a write-back of a tile through its record. -/
  | feedWb (px : Option Modw) (d : BitVec 6) (a b : BitVec 4) (c t : BitVec 1)
  /-- `CPY` (R276): Enter a 64-byte copy command into a copy queue. -/
  | cpy (px : Option Modw) (d : BitVec 6) (a : BitVec 5) (b : BitVec 6)
  /-- `QFENCE` (R277): Place a joining marker in the named queues. -/
  | qfence (a : BitVec 6)
  /-- `QWAIT` (R278): Park until a queue has completed a sequence number. -/
  | qwait (px : Option Modw) (a b : BitVec 6)
  /-- `COLL` (R438): Enter a collective command into a copy queue. -/
  | coll (px : Option Modw) (d : BitVec 6) (a : BitVec 5) (b : BitVec 6)
  /-- `PADDC` (R413): Add an update tile into a pb32 block with carry and renormalisation, committing as one unit. -/
  | paddc (px : Option Modw) (d : BitVec 6) (a b l : BitVec 4)
  /-- `LSUPD` (R419): Advance the dynamic loss-scale state by one step. -/
  | lsupd (d : BitVec 5) (a : BitVec 6)
  /-- `SNAP` (R451): Request a partition snapshot trigger. -/
  | snap
  /-- `TRAPINFO` (R383): Copy a block of the trap record into a scalar quad. -/
  | trapinfo (d : BitVec 4) (b : BitVec 2)
  /-- `RDVER` (R450): Read an interface version into a scalar. -/
  | rdver (d : BitVec 6) (b : BitVec 4)
  /-- `POWER_ON_RESET` (R443): Power-on starts bring-up: Gloerapor verifies firmware, then memory and links are trained and zeroed, then host ports train, and the device reaches the ready stage. -/
  | powerOnReset
  /-- `DEVICE_FUNCTION_RESET` (R443): A device-function reset restarts the bring-up stages from stage 1. -/
  | deviceFunctionReset
  /-- `BRING_UP_STAGE_ADVANCE` (R443): A bring-up stage completes or fails, and the stage register records the outcome. -/
  | bringUpStageAdvance (ok : Bool) (given : StageInput)
  /-- `FIRMWARE_UPDATE_WRITE` (R455): A firmware image is written through the device function and takes effect at the next reset. -/
  | firmwareUpdateWrite (image : Firmware)
  /-- `ATTESTATION_NONCE_WRITE` (R456): Writing a nonce advances and commits the signature index, then forms a signed quote, or reports status 0x04 at exhaustion. -/
  | attestationNonceWrite (nonce : BitVec 256)
  /-- `PARTITION_ASSIGN` (R437): System software assigns idle clusters, memory quarters, engines and ports to a partition. -/
  | partitionAssign (a : Assignment)
  /-- `REGISTER_WRITE` (R444): A write to a partition control block or device-function field that has no row of its own; an out-of-range value is ignored and status reads 0x01. -/
  | registerWrite (p off : Nat) (val : Dword)
  /-- `PRE_EMPT` (R389): Control bit 0 starts pre-emption: Orrery places nothing more and the drain tier begins. -/
  | preEmpt (p : Nat)
  /-- `DRAIN_COMPLETE` (R389): Every team has exited and every engine and home is idle, so the partition halts with nothing to save. -/
  | drainComplete (p : Nat)
  /-- `SWAP_BEGIN` (R389): The drain deadline D expires: homes stop starting batches, engines pause, parked fragments stop, and the others stop at YCHK or TRET. -/
  | swapBegin (p : Nat)
  /-- `SWAP_GRACE_EXPIRY` (R389): Swap grace S expires and every still-running fragment outside a handler is stopped by restart. -/
  | swapGraceExpiry (p : Nat)
  /-- `CONTEXT_EXCHANGE` (R22): With every core halted and every engine paused, the partition context is exchanged with the context shadows within 5,500 cycles. -/
  | contextExchange (p : Nat)
  /-- `RESET_DEADLINE_EXPIRY` (R389): Reset deadline X expires before the exchange completes, so the partition context is reset. -/
  | resetDeadlineExpiry (p : Nat)
  /-- `SPILL` (R390): Control bit 1 spills a saved context from the shadows to memory as an opaque image. -/
  | spill (p : Nat)
  /-- `FILL` (R390): Control bit 2 fills a spilled image back into the shadows; a failed version or check word refuses it. -/
  | fill (p : Nat)
  /-- `INVALIDATE` (R445): Control bit 3 invalidates every translation cache and block translation cache of the partition, completing after old users have performed. -/
  | invalidate (p : Nat)
  /-- `SNAP_ALLOW` (R445): Control bit 4 sets whether non-system groups may issue SNAP. -/
  | snapAllow (p : Nat) (on : Bool)
  /-- `RUN` (R445): Control bit 5 starts Orrery for the partition. -/
  | run (p : Nat)
  /-- `LAUNCH_SUBMIT` (R446): The host writes a record address to a launch queue's submit field; the record is checked, appended, numbered, and the result field written. -/
  | launchSubmit (p q : Nat) (record : List Byte)
  /-- `FAULT_ANSWER` (R221): Software answers a fault record with retry or fail; when all of an instruction's records are answered, it restarts or traps PAGEFAULT. -/
  | faultAnswer (p : Nat) (seq : Word) (fail : Bool)
  /-- `FAULT_CONSUMED_WRITE` (R447): Software advances the fault queue's consumed count, freeing slots and perhaps signalling MSI-X. -/
  | faultConsumedWrite (p : Nat) (n : Word)
  /-- `ERROR_CONSUMED_WRITE` (R447): Software advances the error log's consumed count. -/
  | errorConsumedWrite (p : Nat) (n : Word)
  /-- `ORRERY_TAKE_RECORD` (R131): Orrery takes the head record of a launch queue, freeing its slot and reading an indirect count. -/
  | orreryTakeRecord (p q : Nat)
  /-- `QUEUE_FENCE_PASS` (R131): A queue fence is taken once every earlier grid of its queue has retired, and its completion word is written. -/
  | queueFencePass (p q : Nat)
  /-- `TEAM_PLACEMENT` (R133): Orrery places a new team on a core whose split admits it and whose free resources and relaunch reserve allow it. -/
  | teamPlacement (p grid core : Nat)
  /-- `GANG_SET_PLACEMENT` (R134): Orrery places a set of g or gang-fall teams into one cluster and writes their gang registers. -/
  | gangSetPlacement (p grid : Nat) (cores : List Nat)
  /-- `GRID_RETIREMENT` (R128): A grid whose groups, commands, calls and children are all complete retires, and its writes are performed at device scope. -/
  | gridRetirement (p grid : Nat)
  /-- `FRAGMENT_PROMOTION` (R145): A fragment that has been ready for 1,024 cycles without issuing is promoted. -/
  | fragmentPromotion (g f : Nat)
  /-- `TEAM_EVICTION` (R148): A team parked longer than its eviction threshold, with other work pending, is saved to the save pool and freed. -/
  | teamEviction (team : Nat)
  /-- `RELAUNCH_PLACEMENT` (R149): Orrery restores the oldest fitting relaunch on a core, ahead of new teams. -/
  | relaunchPlacement (team core : Nat)
  /-- `FORCED_EVICTION` (R150): After a relaunch has been pending 50,000 cycles, a core evicts one eligible team, parked first, else one at YCHK. -/
  | forcedEviction (team : Nat)
  /-- `FORCED_STOP_DEADLINE` (R150): The yield limit since a forced choice elapses, and the chosen team's running groups are stopped by restart. -/
  | forcedStopDeadline (team : Nat)
  /-- `FRAGMENT_FUSION` (R157): When every fragment of a split waits and their results have landed, those at its join fuse into one fragment. -/
  | fragmentFusion (g split : Nat)
  /-- `RESULT_LANDING` (R82): A long-latency result lands in its destination registers, closing its lookahead window. -/
  | resultLanding (g f id : Nat)
  /-- `OBJCALL_REPLY_LANDING` (R297): When all replies of an OBJCALL have landed, values and statuses are written together, with an acquire, and OBJFAULT is raised if needed. -/
  | objcallReplyLanding (g f id : Nat)
  /-- `ATOM_REPLY_LANDING` (R310): When all replies of an ATOM have landed, old and new values are written together as an acquire, or MEMERR is raised. -/
  | atomReplyLanding (g f id : Nat)
  /-- `HOME_REQUEST_ARRIVAL` (R287): A request arrives at its home and joins or opens a bin; a bin closes at 32 requests or on a key change. -/
  | homeRequestArrival (home : Nat) (ids : List Nat)
  /-- `COMBINING_WINDOW_EXPIRY` (R287): W cycles after a bin's first request, the bin closes into a batch. -/
  | combiningWindowExpiry (home bin : Nat)
  /-- `BATCH_START` (R291): A closed user batch starts in a free service group at the method entry, with the requests in its lanes. -/
  | batchStart (home sg : Nat)
  /-- `FAST_PATH_BATCH` (R309): The fast path applies an intrinsic batch in linearisation order and sends each lane its reply. -/
  | fastPathBatch (home : Nat)
  /-- `BIND_REQUEST` (R306): An OBJBIND request is applied at the home in linearisation order and replies a status. -/
  | bindRequest (home : Nat)
  /-- `UNBIND_REQUEST` (R306): An OBJUNBIND request removes a binding at the home and replies 0x00 or 0x05. -/
  | unbindRequest (home : Nat)
  /-- `ALLOC` (R270): Pool method 0 pops a free block, sets its count to 1, and replies its index. -/
  | alloc (home : Nat)
  /-- `SHARE` (R270): Pool method 1 increments a block's count. -/
  | share (home : Nat)
  /-- `RELEASE` (R270): Pool method 2 decrements a block's count and pushes the block when it reaches 0. -/
  | release (home : Nat)
  /-- `APPEND` (R272): Pool method 3 copies a shared tail block to a fresh one, or appends in place, then invalidates the entry. -/
  | append (home : Nat)
  /-- `FEED_START` (R258): A feeder starts the next queued feed, reading its record afresh and checking the window. -/
  | feedStart (core feeder : Nat)
  /-- `STREAM_TILE_DELIVERY` (R258): A feeder delivers a stream tile's labels and data into its FIFO once there is room. -/
  | streamTileDelivery (core feeder : Nat)
  /-- `DEFERRED_DATA_FETCH` (R370): After the consuming command has decided its tiles from the labels, the feeder fetches the data it needs or drops the tile. -/
  | deferredDataFetch (core fifo : Nat)
  /-- `COPY` (R264): A copy engine copies the source window to the destination window, with equal formats. -/
  | copy (p q : Nat)
  /-- `GATHER` (R264): A copy through a gather-mode source record. -/
  | gather (p q : Nat)
  /-- `SCATTER` (R264): A copy into rows that a gather-mode destination record selects. -/
  | scatter (p q : Nat)
  /-- `SCATRED` (R264): A scatter that combines each element into memory at the home, in visiting order. -/
  | scatred (p q : Nat)
  /-- `TRANSPOSE` (R264): A copy that moves source position (r, c) to (c, r), moving scale bytes too. -/
  | transpose (p q : Nat)
  /-- `CONVERT` (R264): A copy that rounds each value to the destination format, choosing e8 scales. -/
  | convert (p q : Nat)
  /-- `PAD` (R264): Writes only the destination positions whose source position is synthesised. -/
  | pad (p q : Nat)
  /-- `MIGRATE` (R264): Copies 64 KiB units untranslated between tiers 0 and 1; privileged. -/
  | migrate (p q : Nat)
  /-- `MATRIX_ENGINE_START` (R342): The matrix engine takes a group's next command from the matrix queue and performs it. -/
  | matrixEngineStart (core g : Nat)
  /-- `RENDEZVOUS_TIMEOUT` (R352): 2^20 cycles after the first arrival without all members, the waiting members trap GANG. -/
  | rendezvousTimeout (g : Nat)
  /-- `MWAIT_RELEASE` (R354): A fragment parked in MWAIT is released 8 cycles after its batch completes, with an acquire at core scope. -/
  | mwaitRelease (g f : Nat)
  /-- `BARRIER_WAIT_RELEASE` (R319): A fragment parked in BARW or BARAW is released 8 cycles after the completing arrival, with an acquire. -/
  | barrierWaitRelease (g f : Nat)
  /-- `WAITV_RELEASE` (R322): A fragment parked in WAITV is released 40 or 120 cycles after a satisfying write, with an acquire. -/
  | waitvRelease (g f : Nat)
  /-- `TIER1_WAITV_POLL` (R321): Every 2,048 cycles, a tier-1 word watched by WAITV is read again. -/
  | tier1WaitvPoll (g f : Nat)
  /-- `PHASE_START` (R400): Orrery places all teams of the next Ephemeris phase together once they fit and the previous phase has committed. -/
  | phaseStart (p grid : Nat)
  /-- `PHASE_COMMIT` (R402): With the phase finished, the version table is applied, highest team winning, and conflict records are logged. -/
  | phaseCommit (p grid : Nat)
  /-- `QUANTUM_END` (R403): A group's quantum ends, and its held effects are released in order, or EPHVIOL is trapped on table overflow. -/
  | quantumEnd (g : Nat)
  /-- `EPHEMERIS_DEADLOCK` (R405): Every remaining group of a phase is parked with no release able to meet it, so each traps EPHVIOL. -/
  | ephemerisDeadlock (p grid : Nat)
  /-- `HOME_LOGICAL_TIME_APPLY` (R406): A home applies the requests of logical time q once every group of the phase has released q. -/
  | homeLogicalTimeApply (home : Nat)
  /-- `ABAJA_FLIT_RECEIVE` (R426): A flit arrives: a good one is acknowledged and delivered, a CRC failure is discarded, and pause is sent when headroom runs low. -/
  | abajaFlitReceive (port : Nat) (flit : Flit)
  /-- `FLIT_RETRANSMIT_TIMEOUT` (R426): 2,048 cycles without acknowledgement make a flit be sent again; the eighth attempt takes the port down. -/
  | flitRetransmitTimeout (port : Nat)
  /-- `PAUSE` (R427): A pause received on a virtual lane stops sending on it. -/
  | pause (port : Nat) (lane : BitVec 2)
  /-- `RESUME` (R427): A resume received on a virtual lane restarts sending on it. -/
  | resume (port : Nat) (lane : BitVec 2)
  /-- `PORT_TRAINING` (R428): A port trains at the lower advertised version, or stays down below 0x0100. -/
  | portTraining (port : Nat) (version : BitVec 16) (peer : BitVec 12)
  /-- `REMOTE_REQUEST_ARRIVAL` (R431): A tier-3 request from another device is performed if an export range admits it, and is otherwise refused. -/
  | remoteRequestArrival (port : Nat)
  /-- `HOST_CXL_ACCESS` (R434): A host CXL.mem access is performed at the owning die at system scope. -/
  | hostCxlAccess (p : HostAccess) (write : Bool) (addr : Dword) (data : List Byte)
  /-- `POOL_ACCESS_TIMEOUT` (R435): A tier-1 access not completed within 2^24 cycles becomes unreachable. -/
  | poolAccessTimeout (hostPort : Nat)
  /-- `ALLGATHER` (R439): Collective: each member's receive block i takes member i's send buffer. -/
  | allgather (p q : Nat) (others : List Member)
  /-- `REDSCAT` (R439): Collective: each member receives the ascending-order reduction of its own block over all members. -/
  | redscat (p q : Nat) (others : List Member)
  /-- `ALLRED` (R439): Collective: every member receives the ascending-order reduction of all send buffers. -/
  | allred (p q : Nat) (others : List Member)
  /-- `BCAST` (R439): Collective: every member receives the root's send buffer. -/
  | bcast (p q : Nat) (others : List Member)
  /-- `COLLECTIVE_TIMEOUT` (R440): The collective timeout expires before every member has issued, and the issued members end ERRTIMEOUT. -/
  | collectiveTimeout (p q : Nat)
  /-- `SNAPSHOT_TRIGGER` (R452): A write to offset 0x8000 of a function is accepted as a trigger and holds its units, or is counted as missed. -/
  | snapshotTrigger (fn : Nat)
  /-- `SNAPIN` (R452): The SNAPIN pin triggers a device-wide snapshot, accepted unless some unit is held. -/
  | snapin
  /-- `SNAPSHOT_LATCH` (R452): 64 cycles after an accepted trigger, every covered register latches and the sequence increments. -/
  | snapshotLatch
  /-- `SNAPSHOT_RELEASE` (R453): A write to offset 0x8008 releases the held snapshot. -/
  | snapshotRelease (fn : Nat)
  /-- `FILL_COMMAND` (R264): A copy engine performs a FILL command, writing the destination record's pad value to every real destination position and then its completion word. -/
  | fillCommand (p q : Nat)
  /-- `UNDEFINED_ENCODING` (R84): An instruction unit whose word no entry defines, such as opcodes 0x78 to 0x7F, an unlisted function code or a nonzero reserved field, traps ILLEGAL with no effect. -/
  | undefinedEncoding
  /-- `POWER_LOSS` (R456): Supply is lost while the device runs, for instance after an attestation index has been committed, so that index is skipped and volatile state is gone until power-on. -/
  | powerLoss
  deriving DecidableEq, Repr

end Sys2Proof
end

