-- ==== Sys2Proof/Machine/State.lean ====
section
/-!
DEFINITION. The state of the Harette H7 as plain data: the device, its partitions with their grids, teams and groups, the
engines, the homes, the links, and the model's own agenda; the reasons a step can stop; and the state after reset.
Rules of the spec are cited as NN Rn: file NN_*.md, rule Rn.  Fields marked MODEL are the model's own, not the spec's.
-/

namespace Sys2Proof.Machine

/-- The reasons the machine stops with a fault.  The spec's own traps and faults are next states (16 R379 to R391). -/
inductive Fault where
  /-- Raised by `exec` of an instruction with an encoding when no fragment issues (MODEL: `step` never asks for that).  Safe. -/
  | noIssuer
  deriving DecidableEq, Repr

/-- The reasons an instruction has no meaning here. -/
inductive Refusal where
  /-- Raised by an arm of `exec` whose instruction has not been modelled.  Safe. -/
  | notModelled (mnemonic : String)
  deriving DecidableEq, Repr

/-- Byte memory: addresses strictly rising, and no entry that equals what an unlisted address reads as. -/
abbrev Cells := List Host.Cell

/-- 32-bit storage by number (registers, lanes, accumulator words): numbers strictly rising, no zero entry. -/
abbrev Regs := List (Nat × Word)

/-- A number as the number formats give it (04 R86 to R98), exact: a NaN, an infinity, or (-1)^sign * mant * 2^exp. -/
inductive Num where
  | nan
  | inf (neg : Bool)
  | fin (neg : Bool) (mant : Nat) (exp : Int)
  deriving DecidableEq, Repr

/-- Where an access is performed: a byte of a memory (tier 0, a pool, a remote device: one numbering, `Ops.lean`), or a byte of a
team's scratchpad slice (08 R208, 01 R19). -/
inductive Loc where
  | mem (key : Nat)
  | slice (team off : Nat)
  deriving DecidableEq, Repr

/-- The rights an access is checked with: the partition, and whether its group is a system group (05 R130, 08 R218). -/
structure Rights where
  part : Nat
  sys  : Bool
  deriving DecidableEq, Repr

/-- A register of an instruction's result, as an absolute register (03 R64, R81). -/
inductive RegRef where
  | v (n : Nat)
  | s (n : Nat)
  deriving DecidableEq, Repr

/-- One word a result writes when it lands; the lane of a scalar is 0. -/
structure RegWrite where
  reg  : RegRef
  lane : Nat
  val  : Word
  deriving DecidableEq, Repr

/-- A trap that is raised: cause, lane mask, address, trap PC, resume PC, and whether it is no-effect (16 R379). -/
structure TrapInfo where
  cause    : Byte
  mask     : Word
  addr     : Dword
  pc       : Dword
  resume   : Dword
  noEffect : Bool
  /-- It was detected in a fragment that a running handler holds, and is taken as pending after TRET: flag [1] of the record (16 R382). -/
  late     : Bool := false
  deriving DecidableEq, Repr

/-- The trap record of a group (16 R382). -/
structure TrapRecord where
  cause       : Word := 0
  mask        : Word := 0
  addr        : Dword := 0
  pc          : Dword := 0
  resume      : Dword := 0
  regionEntry : Dword := 0
  regionCount : Word := 0
  flags       : Word := 0
  window      : Word := 0
  deriving DecidableEq, Repr

/-- The region state of a fragment (06 R165, R166): entry, kind, staging mask with the window base at the RGN (the mask names
window granules), counter at entry, and the pending join at entry.  `units` is the retired-unit count at the entry (17 R410). -/
structure Region where
  entry : Dword
  sp    : Bool := false
  mask  : BitVec 16 := 0
  base  : Nat := 0
  count : Word := 0
  join  : Option Dword := none
  units : Nat := 0
  deriving DecidableEq, Repr

/-- What kind of result an outstanding one is: what FENCE waits for, and what a stop by restart keeps (13 R335, 16 R387). -/
inductive OutKind where
  /-- LD, LDS, PLD: abandoned at a stop; waited for by an acquire fence. -/
  | load
  /-- VFSFU, RNGC, VRED, VSCAN: abandoned at a stop; not waited for by a fence. -/
  | compute
  /-- ATOM: kept; waited for by a fence. -/
  | atom
  /-- OBJCALL: kept; waited for by a fence. -/
  | objcall
  /-- DEQ, PADDC and the interlocked status of OBJBIND and OBJUNBIND: kept; not waited for by a fence. -/
  | kept
  deriving DecidableEq, Repr

/-- One lane's reply to an ATOM or OBJCALL that has arrived (11 R297, 12 R310): two words, and whether it is an error. -/
structure Reply where
  lane : Nat
  w0   : Word
  w1   : Word
  err  : Bool
  deriving DecidableEq, Repr

/-- One access of a store: a location, its virtual address, the bytes, and the bits of each byte that are written (all of them when
the list is empty), which is how PST writes single nibbles (08 R227, R232); and whether it is part of a commit unit of planes (08 R233). -/
structure Piece where
  loc   : Loc
  addr  : Dword
  bytes : List Byte
  mask  : List Byte
  plane : Bool := false
  deriving DecidableEq, Repr

/-- An outstanding result of a fragment, or the open window of one that has landed (03 R81, R82). -/
structure Out where
  id        : Nat
  kind      : OutKind
  regs      : List RegRef
  /-- Units left in its lookahead window. -/
  window    : Nat
  /-- The result waits at a touching unit instead of trapping LAHZ (hardware interlock). -/
  interlock : Bool
  landed    : Bool
  str       : BitVec 4
  /-- Words it writes when it lands. -/
  writes    : List RegWrite
  /-- Lanes whose replies have not arrived, and the replies that have. -/
  awaits    : List Nat
  replies   : List Reply
  /-- Base or address of each lane, for the address of a trap. -/
  addrs     : List (Nat × Dword)
  /-- The post-effect trap its landing raises (08 R223, 11 R297, 12 R313). -/
  trap      : Option TrapInfo
  /-- Flits of its tier-3 requests not yet acknowledged: port, sequence number and lane (19 R426). -/
  flits     : List (Nat × BitVec 12 × Nat)
  /-- First word of its unit, and the first unit after it when it issued. -/
  pc        : Dword
  /-- Quantum of the release that sent it (17 R405). -/
  quantum   : Nat
  /-- The commit of a PADDC that has read its block and has not written it (18 R415, R416). -/
  commit    : List Piece := []
  /-- Further streams that a fence has joined to its own (13 R335). -/
  joined    : BitVec 16 := 0
  deriving DecidableEq, Repr

/-- What a fragment that does not issue waits for (05 R147, 06 R158, 08 R222). -/
inductive Wait where
  /-- WAITV: location and virtual address, width in bytes, relation, comparand, whether it is a tier-1 word, which is polled, whether a
  write has satisfied it, and the unit's PC (12 R320, R321). -/
  | watch (loc : Loc) (addr : Dword) (bytes : Nat) (rel : BitVec 4) (cmp : Dword) (tier1 : Bool) (met : Bool) (pc : Dword)
  /-- BARA or BARAW on a word that is not armed: word, destination scalar, and whether a BARAW goes on waiting (12 R316). -/
  | arm (word : Nat) (d : BitVec 6) (thenWait : Bool)
  /-- BARW, or BARAW after its arrival: word and token (12 R317). -/
  | phase (word : Nat) (token : Word)
  /-- DEQ on an empty queue: queue, destination quad, lookahead (05 R142). -/
  | deq (queue : Nat) (d : Nat) (la : Nat) (out : Nat)
  /-- MWAIT: batch number (14 R354). -/
  | batch (n : Word)
  /-- QWAIT: queue and sequence number (10 R278). -/
  | queue (q : Nat) (seq : Word)
  /-- CWAIT: grid number, 0 for every grid launched so far (05 R141); the list holds the numbers waited for. -/
  | grids (ns : List Word)
  /-- A replayable stall: fault sequence numbers not yet answered, regions answered with fail, and the faulting addresses by lane
  (08 R221, R222). -/
  | stall (open_ : List Word) (failed : List Dword) (lanes : List (Nat × Dword)) (fetch : Bool)
  /-- A stall whose fault records do not all fit the fault queue (08 R221): addresses whose records are still to be appended. -/
  | queueFull (todo : List (Dword × Byte × Byte)) (open_ : List Word) (failed : List Dword) (lanes : List (Nat × Dword)) (fetch : Bool)
  /-- HBIND in Ephemeris mode: its quantum's release, and the end of every FEED and use of the handle (17 R409). -/
  | rebind (handle : Nat)
  deriving DecidableEq, Repr

/-- A fragment: its lanes, program counter, pending join, region, split, outstanding results and what it waits for
(06 R153, R165; 03 R81; 16 R381). -/
structure Frag where
  id       : Nat
  mask     : Word
  pc       : Dword
  /-- First word of the unit it issued last: where it is parked (17 R405). -/
  last     : Dword
  join     : Option Dword
  region   : Region
  /-- The split it belongs to; 0 is the root split (06 R154). -/
  split    : Nat
  outs     : List Out
  wait     : Option Wait
  /-- Stopped by pre-emption or forced eviction (06 R171, 16 R387, R388). -/
  stopped  : Bool
  /-- Pending traps, oldest first (16 R381). -/
  pending  : List TrapInfo
  /-- An EPHVIOL of a release that is taken once the fragment's wait has ended and its results have landed (17 R401). -/
  deferred : Option TrapInfo
  /-- In Ephemeris mode, the region that its last unit ended, until that unit's effect is released (06 R167). -/
  prior    : Option Region := none
  /-- Flits of the tier-3 read of its WAITV that are not yet acknowledged (12 R321; 19 R426). -/
  wire     : List (Nat × BitVec 12) := []
  /-- In Ephemeris mode, the quantum of the release that ended its last park: it goes on in a later quantum (17 R405). -/
  after    : Nat := 0
  /-- MODEL: its next unit was tried and must wait for a result, a queue or an engine; judged again after every turn. -/
  held     : Bool
  /-- MODEL: its next unit, an HBIND that waits, has been counted already (17 R403, R409). -/
  counted  : Bool
  /-- Step at which it became ready, and at which it was promoted (05 R145). -/
  ready    : Nat
  promoted : Option Nat
  /-- MODEL: at the end of the last turn it was not ready: its own state, its group's, or its next unit kept it from issuing. -/
  unready  : Bool := false
  deriving DecidableEq, Repr

/-- A split: its join address and its parent split (06 R154). -/
structure Split where
  id     : Nat
  join   : Dword
  parent : Nat
  deriving DecidableEq, Repr

/-- The stage block of a group (06 R166): staged vector words (numbered as the vector file), scalars, and predicates by lane. -/
structure Stage where
  v : Regs := []
  s : Regs := []
  p : Regs := []
  deriving DecidableEq, Repr

/-- A handler that runs: the fragment that trapped, which stays as it was with its region, pending join and split, the mask of
the handler at entry, the fragments it holds, that one among them, and the stage block set aside (16 R380, R385). -/
structure Handler where
  frag   : Nat
  mask   : Word
  held   : List Nat
  stage  : Stage
  /-- The fragment that was issuing in fixed order when the handler started (06 R159). -/
  turn   : Option Nat := none
  deriving DecidableEq, Repr

/-- A tile handle (10 R254); whether its record has labels is kept too (14 R356). -/
structure Handle where
  num       : Nat
  record    : Dword
  dest      : Word
  format    : Byte
  swizzle   : BitVec 4
  labelRows : Bool
  hasLabels : Bool
  failed    : Bool
  failure   : Byte
  failAddr  : Dword
  delivered : Word
  position  : Word
  lastFeed  : Word
  deriving DecidableEq, Repr

/-- An element of a stream tile: its code in the tile's format (of a plane format, the mantissa as read), and its scale as a number
(04 R101, R107). -/
structure StreamElem where
  code  : Nat
  scale : Num
  deriving DecidableEq, Repr

/-- A tile of an operand stream: labels when present (with their axis), then its elements; none while its data is not fetched
(10 R258, 15 R370); or the failure that stands in its place (10 R259); and its number in its feed. -/
structure StreamTile where
  format   : BitVec 6
  scale    : BitVec 2
  labels   : Option (List Word)
  rows     : Bool
  data     : Option (List StreamElem)
  failure  : Option (Byte × Dword)
  index    : Nat
  deriving DecidableEq, Repr

/-- The kind of a matrix command (14 R355 to R359, 15 R373, R375), or the place that MSTAT holds in the order, with its field, its
outstanding result, its destination register and its lanes (14 R360). -/
inductive MatKind where
  | mma | mtr | mzero | mlda | msta | mnorm | mmas | mmap
  | mstat (field out reg : Nat) (lanes : Word)
  deriving DecidableEq, Repr

/-- A matrix command as its issue captured it (14 R342 to R356, 15 R372, R373). -/
structure MatCmd where
  id      : Nat
  group   : Nat
  mask    : Word
  pc      : Dword
  /-- Its number in the group's issue order. -/
  index   : Nat
  kind    : MatKind
  word    : Word
  aux     : Word
  ha      : Nat
  hb      : Nat
  slot    : Word
  px      : Mxw
  rel     : Option (BitVec 128)
  smscale : Word
  /-- Joint: the number j at the latch, the members as (rank, group) numbers, and this group's index (14 R351, R352). -/
  joint   : Option (Nat × List (Nat × Nat) × Nat)
  /-- The number of the batch that will hold it (14 R356). -/
  batch   : Word
  /-- FEEDs that must have completed first, as feeder and sequence number (10 R261, 14 R356). -/
  fills   : List (Nat × Word)
  /-- Quantum of the release that handed it over (17 R405, R407). -/
  quantum : Nat
  /-- It waits at the rendezvous latch (14 R352); the engine has started it; why a joint command fails once the others' tiles have come
  (14 R349); and the stream tiles it has consumed so far. -/
  latched : Bool
  started : Bool
  failed  : Option (Byte × Dword)
  aTiles  : List StreamTile
  bTiles  : List StreamTile
  deriving DecidableEq, Repr

/-- A feed in a feeder queue (10 R258, R275). -/
structure Feed where
  seq     : Word
  group   : Nat
  handle  : Nat
  record  : Dword
  dest    : Word
  row0    : Word
  col0    : Word
  h       : Word
  w       : Word
  tr      : Bool
  cm      : Bool
  wb      : Bool
  /-- Matrix commands of the group issued before it; those that use the handle come first (10 R261, 14 R356). -/
  after   : Nat
  rights  : Rights
  team    : Nat
  grid    : Nat
  str     : BitVec 4
  quantum : Nat
  /-- It has failed, and so is complete, but labelled tiles that it delivered before still wait for their data (10 R258, R259; 15 R370). -/
  failed  : Bool := false
  deriving DecidableEq, Repr

/-- A copy command or a collective in a copy queue: its 64 bytes, and who issued it (10 R262, R263; 19 R438). -/
structure CopyCmd where
  seq     : Word
  bytes   : List Byte
  coll    : Bool
  rights  : Rights
  group   : Option Nat
  grid    : Option Nat
  str     : BitVec 4
  quantum : Nat
  deriving DecidableEq, Repr

/-- What stands in an engine queue: a command, or a QFENCE marker by its number (10 R277). -/
inductive QItem (α : Type) where
  | cmd (c : α)
  | marker (n : Nat)
  deriving DecidableEq, Repr

/-- What a queued engine waits on when a page is not present: open fault records, and whether one was answered with fail (10 R260); or that the
fault queue had no room for its record of an address (08 R221). -/
structure Pause where
  open_  : List Word
  failed : Option Dword
  noRoom : Option Dword := none
  deriving DecidableEq, Repr

/-- How far the fill of a scratchpad tile, or of a stream tile, has come when it pauses (10 R260): the labels read, the blocks read, each with its
scale byte and its codes, the positions read of the next block, and the planes read of its next position. -/
structure TileFill where
  labels : List Word := []
  blocks : List (Nat × List Nat) := []
  cells  : List (Option (Nat × Nat)) := []
  planes : List Nat := []
  deriving DecidableEq, Repr

/-- A stream FIFO of a core (01, 10 R258, R274). -/
structure Fifo where
  core  : Nat
  num   : Nat
  bound : Option (Nat × Nat)
  tiles : List StreamTile
  /-- Tiles that a failed command still consumes and discards (14 R349). -/
  discard : Nat
  /-- A deferred data fetch of its head tiles that paused, and how far it has come (15 R370, 10 R260). -/
  pause : Option Pause
  got   : TileFill := {}
  deriving DecidableEq, Repr

/-- A feeder queue of a core (10 R262): next sequence number, last completed, entries, how far the running feed has come (stream
tiles delivered, or units written; `none` before it starts), the bytes of its record and the source indices of its gather
dimension as read at its start (10 R252, R275), and a pause. -/
structure Feeder where
  core    : Nat
  num     : Nat
  nextSeq : Word
  done    : Word
  /-- Numbers complete beyond the run that ends at `done`. -/
  ahead   : List Word := []
  /-- The commands that releases of running phases have handed over, each with its quantum and grid (17 R405). -/
  times   : List (Word × Nat × Nat) := []
  items   : List (QItem Feed)
  running : Option Nat
  shape   : List Byte
  index   : List (Nat × Option Nat)
  pause   : Option Pause
  /-- Where the fill of a tile stands (10 R260). -/
  got     : TileFill := {}
  /-- For a running feed of a plane format: what the commit units of planes that have been made since it began have replaced, by location key; the feed
sees every one of them as it was before (08 R233; 18 R415). -/
  past    : Option Cells := none
  /-- Flits of its running feed's tier-3 requests that are not yet acknowledged: port, sequence number and address (19 R426). -/
  wire    : List (Nat × BitVec 12 × Dword) := []
  deriving DecidableEq, Repr

/-- A copy queue of a partition (10 R262): as a feeder queue; `running` counts the units of the destination written, and the rest are
the records and the gather indices that the running command has read. -/
structure CopyQueue where
  part    : Nat
  num     : Nat
  nextSeq : Word
  done    : Word
  /-- Numbers complete beyond the run that ends at `done`. -/
  ahead   : List Word := []
  /-- The commands that releases of running phases have handed over, each with its quantum and grid (17 R405). -/
  times   : List (Word × Nat × Nat) := []
  items   : List (QItem CopyCmd)
  running : Option Nat
  src     : List Byte
  dst     : List Byte
  srcIdx  : List (Nat × Option Nat)
  dstIdx  : List (Nat × Option Nat)
  pause   : Option Pause
  /-- Flits of its running command's tier-3 requests that are not yet acknowledged (19 R426). -/
  wire    : List (Nat × BitVec 12 × Dword) := []
  /-- Flits of its running collective's data, on virtual lane 2, that are not yet acknowledged: port and sequence number (19 R425, R426). -/
  data    : List (Nat × BitVec 12) := []
  /-- What the first of the two accesses of an element in a pool has read for its running SCATRED (19 R436). -/
  found   : Option Nat := none
  /-- For a running command that reads a plane format: what the commit units of planes have replaced since it began, as of a feed (08 R233). -/
  past    : Option Cells := none
  deriving DecidableEq, Repr

/-- The matrix queue of a core, 64 entries, in order (14 R342). -/
structure MatQueue where
  core : Nat
  cmds : List MatCmd
  deriving DecidableEq, Repr

/-- The rendezvous latch of a gang: its members (group ids), the number j, the commands that have arrived, and whether number j has
failed (14 R352). -/
structure Latch where
  members : List Nat
  j       : Nat
  arrived : List MatCmd
  failed  : Bool
  deriving DecidableEq, Repr

/-- What a request asks of its home (11 R282, R285, R306; 12 R308). -/
inductive Ask where
  | method (id : BitVec 7)
  | intrinsic (op : BitVec 4) (type : BitVec 3)
  | bind (length : Word) (selector : Word) (table : Dword)
  | unbind
  deriving DecidableEq, Repr

/-- Where a reply goes: a lane of an outstanding result, or nowhere (OBJPOST, RED, another device). -/
structure ReplyTo where
  group : Nat
  frag  : Nat
  out   : Nat
  deriving DecidableEq, Repr

/-- A request on its way to a home, or at it (11 R285, R289; 12 R309). -/
structure Request where
  id      : Nat
  home    : Nat
  source  : Word
  lane    : Nat
  /-- The object base, or the element's address, as the requester named it. -/
  base    : Dword
  loc     : Loc
  ask     : Ask
  op0     : Word
  op1     : Word
  rights  : Rights
  grid    : Option Nat
  reply   : Option ReplyTo
  pc      : Dword
  /-- The group that issued it, none for another device, and its stream (13 R327). -/
  group   : Option Nat
  str     : BitVec 4
  /-- The fragment that issued it, and a number of its unit that rises in issue order (11 R289). -/
  frag    : Nat
  unit    : Nat
  /-- Logical time (quantum, grid-wide group id) in Ephemeris mode (17 R406). -/
  time    : Option (Nat × Nat)
  /-- The port that the answer to another device leaves by (19 R432). -/
  port    : Option Nat
  /-- Where it stands among the releases of its team (17 R404). -/
  place   : Nat := 0
  /-- Of a post of a method in logical time: how many batches lie between it and the request of a group (17 R406). -/
  hops    : Nat := 0
  /-- Of a request of another device: the port that it came in by, plus one (19 R432). -/
  link    : Nat := 0
  /-- Of an atomic on a tier-1 element: what the first of its two accesses has read there (19 R436). -/
  found   : Option Nat := none
  /-- Further streams that a fence has joined to its own while it was on its way (13 R335). -/
  joined  : BitVec 16 := 0
  deriving DecidableEq, Repr

/-- A bin, open or closed: its object, key and requests in order (11 R287). -/
structure Bin where
  num  : Nat
  obj  : Dword
  ask  : Ask
  reqs : List Request
  deriving DecidableEq, Repr

/-- An entry of a home's binding table (11 R282, R284): base, length, method table (none for the pool methods), rights, and the
issuing grid's format. -/
structure Binding where
  base   : Dword
  length : Word
  table  : Option Dword
  rights : Rights
  deriving DecidableEq, Repr

/-- A batch that runs in a service group (11 R291 to R294): its bin, method entry, store buffer (nibbles by twice their location key,
plus one for the high nibble), held posts, and whether its start waits on a fault. -/
structure Batch where
  sg      : Nat
  bin     : Bin
  entry   : Dword
  rights  : Rights
  buffer  : Cells
  posts   : List Request
  pause   : Option Pause
  /-- Once its method commits: the bytes that the first of two accesses has read of the words in a pool that it writes in part (19 R436). -/
  found   : Option Cells := none
  deriving DecidableEq, Repr

/-- A combiner home (11 R281 to R288). -/
structure Home where
  num      : Nat
  queue    : List Request
  bins     : List Bin
  closed   : List Bin
  bindings : List Binding
  batches  : List Batch
  nextBin  : Nat
  /-- The binds and pool batches whose access met a not-present page (11 R284, R298), by their bins. -/
  pauses   : List (Nat × Pause)
  /-- What the pools hold for the pool batch of a bin, by the bin's number, once the first of its two accesses of them has read it; and whether the
  batch writes a pool (19 R436). -/
  found    : Option (Nat × Cells) := none
  stores   : Bool := false
  deriving DecidableEq, Repr

/-- An effect of a unit that crosses to another group or agent: performed at once, or held to the quantum end in Ephemeris mode
(17 R404). -/
inductive Effect where
  /-- A store: its pieces in order, its stream, its unit's PC and its fragment's mask, for a narrow store that meets an error (08 R224). -/
  | store (pieces : List Piece) (str : BitVec 4) (pc : Dword) (mask : Word)
  /-- A scratchpad atomic: the request's element and operands (12 R311). -/
  | windowAtomic (r : Request)
  /-- BARI: word and count. -/
  | barInit (word : Nat) (count : Word)
  /-- BARA and BARAW: an arrival; the fragment that takes the token (12 R317). -/
  | barArrive (word : Nat) (frag : Nat) (d : BitVec 6) (thenWait : Bool)
  | request (r : Request)
  | matrix (core : Nat) (c : MatCmd)
  | feed (core feeder : Nat) (c : Feed)
  | copy (queue : Nat) (c : CopyCmd)
  | marker (mask : Word) (core : Nat) (n : Nat)
  | enq (queue : Nat) (items : List (List Word))
  | deq (queue : Nat) (frag : Nat) (out : Nat) (d : Nat)
  | deqt (queue : Nat) (frag : Nat) (d : Nat) (p : BitVec 4)
  deriving DecidableEq, Repr

/-- Logical time of a group in Ephemeris mode (17 R403, R404): its quantum, the retired units when that quantum began, the retired
units, the effects held, and whether the quantum has ended and waits for its release. -/
structure Logical where
  quantum : Nat
  start   : Nat
  retired : Nat
  held    : List Effect
  ended   : Bool
  /-- First word of the unit that ended the quantum, and its fragment (17 R401). -/
  endPc   : Dword
  endFrag : Nat
  /-- Retired units when it ended (17 R410). -/
  endAt   : Nat := 0
  /-- The fragment that issued EXIT, with the units after it, while the last quantum waits for its release (17 R401, R403). -/
  leaver  : Option Frag := none
  deriving DecidableEq, Repr

/-- The role of a group: an ordinary group of a team, or a service group of a home (05 R122, 11 R291). -/
inductive Role where
  | ordinary
  | service (home sg : Nat)
  deriving DecidableEq, Repr

/-- A group with its registers (03 R59 to R66), its fragments and its pending work. -/
structure Group where
  id       : Nat
  role     : Role
  part     : Nat
  team     : Nat
  num      : Nat
  quadrant : Nat
  slot     : Nat
  age      : Nat
  exited   : Bool
  /-- Vector words: register r at lane i has number 32 r + i. -/
  v        : Regs
  s        : Regs
  /-- Predicates p1 to p15, one word of lanes each. -/
  p        : Regs
  /-- Accumulator words: element (row, col) of tile k has number 1,024 k + 32 row + col. -/
  acc      : Regs
  handles  : List Handle
  /-- The images of handles that a restore left unbound (03 R69). -/
  loose    : List Handle := []
  /-- Window base W. -/
  window   : Nat
  /-- Vector granules G, accumulator tiles T and tile handle demand. -/
  granules : Nat
  tiles    : Nat
  handleN  : Nat
  gang     : Dword
  joints   : Nat
  rngkey   : Dword
  smscale  : Word
  trap     : TrapRecord
  regions  : Word
  frags    : List Frag
  splits   : List Split
  handler  : Option Handler
  /-- A trap that waits for the group's outstanding results to land, with its fragment (16 R380), and its flag [1]. -/
  trapWait : Option (Nat × TrapInfo × Bool)
  stage    : Stage
  /-- Matrix commands issued, the number of the next batch, and each closed batch with its last command (14 R353). -/
  cmds     : Nat
  nextBatch : Word
  batches  : List (Word × Nat)
  /-- Narrow stores that met an error: stream, lanes of the fragment that issued it, and address (08 R224). -/
  narrow   : List (BitVec 4 × Word × Dword)
  logical  : Option Logical
  /-- Results still on their way to registers of the group that its exit left behind (06 R169, R170). -/
  strays   : List Out := []
  /-- Tier-3 stores that are not yet acknowledged: stream, port, sequence number and address (13 R331, 19 R426). -/
  wire     : List (BitVec 4 × Nat × BitVec 12 × Dword) := []
  /-- The last DEQ or DEQT, by issue number, that took an item into a quad (05 R142). -/
  taken    : List (Nat × Nat) := []
  /-- In Ephemeris mode, the fragment that issues until it waits at a join, parks or exits (06 R159). -/
  turn     : Option Nat := none
  deriving DecidableEq, Repr

/-- Where a team is (05 R123, R148, R149). -/
inductive Place where
  | core (n : Nat)
  /-- Evicted: the core it left, its save slot, and whether it was saved ready. -/
  | evicted (core slot : Nat) (ready : Bool)
  | gone
  deriving DecidableEq, Repr

/-- One byte a team has written in the running phase: quantum, grid-wide group id, location key (of a slice byte, `sliceKey`), value (17 R401,
R404). -/
structure PhaseWrite where
  quantum : Nat
  gid     : Nat
  key     : Nat
  val     : Byte
  /-- Its place among the releases of the team, in release order. -/
  place   : Nat := 0
  /-- It is the result of an atomic, which memory has taken in, together with those of every other team (17 R406). -/
  atomic  : Bool := false
  deriving DecidableEq, Repr

/-- A team (05 R122, R123, R134; 08 R209; 12 R316). -/
structure Team where
  id       : Nat
  part     : Nat
  grid     : Nat
  num      : Nat
  place    : Place
  /-- Gang set: its first team number, its size and this team's rank (05 R134). -/
  setFirst : Nat
  setSize  : Nat
  rank     : Nat
  /-- Slice bytes that have been written, offsets strictly rising; every other byte is undefined (08 R210). -/
  slice    : Cells
  sliceLen : Nat
  arm      : BitVec 16
  rels     : List (Nat × BitVec 128)
  /-- Numbers of the grids it has launched (05 R141), and those that have retired. -/
  launched : List Word
  retired  : List Word
  /-- Chosen for a forced eviction (05 R150), and whether it was chosen parked. -/
  chosen   : Option Bool
  /-- MODEL: the opaque split table blocks its save wrote, one number for each save (03 R67). -/
  saveTag  : Nat
  writes   : List PhaseWrite
  /-- How many effects the team has released in the running phase: the next place among them (17 R404). -/
  released : Nat := 0
  /-- 16-byte words of its slice that hold an uncorrectable error (08 R223; 18 R414). -/
  sliceErr : List Nat := []
  deriving DecidableEq, Repr

/-- A launch record, field by field (05 R124). -/
structure LaunchRecord where
  version   : BitVec 16
  kind      : Byte
  priority  : Byte
  depth     : Byte
  gangPref  : Byte
  gangFall  : Byte
  groups    : Byte
  teams     : Word
  pool      : Word
  entry     : Dword
  methods   : Dword
  vector    : Dword
  arg       : Dword
  countAddr : Dword
  complete  : Dword
  vDemand   : BitVec 16
  cDemand   : Byte
  tDemand   : Byte
  evict     : Word
  quantum   : Word
  fmt       : List Word
  deriving DecidableEq, Repr

/-- Who launched a grid: the host, or a team of a grid, and whether it is a system group (05 R130, R132, R458). -/
structure Launcher where
  team : Option Nat
  sys  : Bool
  deriving DecidableEq, Repr

/-- A record in a launch queue, with its grid number; the slot that an Ephemeris launch reserved is written at the phase's commit, with the
bytes kept here (17 R407). -/
structure QueuedRecord where
  record   : LaunchRecord
  number   : Word
  launcher : Launcher
  reserved : Bool
  /-- Its parent was ended by a context fault, so it retires with status 0x10 when it is taken (16 R391). -/
  ended    : Bool
  slot     : Nat := 0
  bytes    : List Byte := []
  deriving DecidableEq, Repr

/-- A phase of an Ephemeris grid (17 R400, R402): width N, number k, whether it runs, and the bytes at its start of the locations that its
atomics have changed since (17 R401). -/
structure Phase where
  width   : Nat
  num     : Nat
  running : Bool
  before  : Cells := []
  deriving DecidableEq, Repr

/-- A grid that Orrery has taken, or a queue fence that has been taken (05 R128, R131). -/
structure Grid where
  id       : Nat
  part     : Nat
  number   : Word
  record   : LaunchRecord
  launcher : Launcher
  queue    : Nat
  /-- Teams of the grid, as fixed when it was taken, and the next to place. -/
  teams    : Nat
  next     : Nat
  status   : Byte
  retired  : Bool
  phase    : Option Phase
  deriving DecidableEq, Repr

/-- A launch queue of a partition (05 R131, 20 R444). -/
structure LaunchQueue where
  base   : Dword := 0
  k      : Nat := 0
  sys    : Bool := false
  submit : Dword := 0
  result : Dword := 0
  items  : List QueuedRecord := []
  tail   : Nat := 0
  /-- A count read of an indirect record that waits on a fault (05 R132). -/
  pause  : Option Pause := none
  deriving DecidableEq, Repr

/-- A work queue of a partition (05 R137): its items as four words each, and the fragments parked in DEQ, in order. -/
structure WorkQueue where
  base   : Dword := 0
  k      : Nat := 0
  items  : List (List Word) := []
  tail   : Nat := 0
  parked : List (Nat × Nat) := []
  /-- The quantum and the grid of the release that enqueued each item; 0 and 0 for an item of no release of a running phase (17 R405). -/
  stamps : List (Nat × Nat) := []
  deriving DecidableEq, Repr

/-- A hash window descriptor (18 R422). -/
structure HashWindow where
  num     : Nat
  members : Nat
  self    : Nat
  pages   : Nat
  base    : Nat
  backing : Nat
  table   : Nat
  /-- Offsets of the fields whose last write was refused. -/
  bad     : List Nat := []
  deriving DecidableEq, Repr

/-- An export range (20 R444, 19 R431). -/
structure ExportRange where
  num    : Nat
  base   : Nat
  length : Nat
  lo     : Nat
  hi     : Nat
  deriving DecidableEq, Repr

/-- An open fault record: its sequence number, and the faulting address (08 R221). -/
structure FaultRec where
  seq  : Word
  addr : Dword
  deriving DecidableEq, Repr

/-- The pre-emption tiers of a partition (16 R389): running, draining, swapping (stops at YCHK), stopping by restart, halted. -/
inductive Tier where
  | run | drain | swap | force | halted
  deriving DecidableEq, Repr

/-- A cached leaf: page base, page bytes, leaf entry (08 R219). -/
structure CachedLeaf where
  base : Nat
  size : Nat
  leaf : Dword
  deriving DecidableEq, Repr

/-- A completion word that waits on a not-present page (05 R458). -/
structure PendingWord where
  addr   : Dword
  value  : Dword
  rights : Rights
  a      : Word
  b      : Word
  pause  : Pause
  /-- Of a command of a running phase: its team, quantum and grid-wide group id (17 R401, R407). -/
  phase  : Option (Nat × Nat × Nat) := none
  deriving DecidableEq, Repr

/-- A snapshot window of a function (20 R453, R454). -/
structure SnapWindow where
  missed   : Word := 0
  sequence : Word := 0
  held     : Bool := false
  pending  : Bool := false
  selector : Word := 0
  /-- The clock at which the trigger was accepted. -/
  since    : Nat := 0
  deriving DecidableEq, Repr

/-- An invalidation that runs: the accesses that may still use an old entry when it was written: the atomics on their way by request id, the
groups with held effects by their quantum, the results whose commits are to be made, and the service groups with stores or posts (08 R219). -/
structure Invalidation where
  reqs   : List Nat
  groups : List (Nat × Nat)
  outs    : List Nat := []
  methods : List Nat := []
  deriving DecidableEq, Repr

/-- A partition: its resources (19 R437), its control block (20 R444) and its queues. -/
structure Part where
  id          : Nat
  clusters    : List Nat
  quarters    : List Nat
  engines     : List Nat
  ports       : List Nat
  root        : Dword
  yieldLimit  : Word
  window      : Byte
  drain       : Word
  swap        : Word
  reset       : Word
  collective  : Word
  snapAllow   : Bool
  running     : Bool
  status      : Byte
  image       : Dword
  saveBase    : Dword
  saveBytes   : Word
  saveSlots   : Word
  faultBase   : Dword
  faultK      : Nat
  answer      : Dword
  errBase     : Dword
  errK        : Nat
  faultProd   : Word
  faultCons   : Word
  errProd     : Word
  errCons     : Word
  vectors     : Word
  errLost     : Word
  launch      : List LaunchQueue
  work        : List WorkQueue
  hash        : List HashWindow
  exports     : List ExportRange
  nextGrid    : Word
  nextFault   : Word
  nextErr     : Word
  faults      : List FaultRec
  tlb         : List CachedLeaf
  /-- The block translation caches of its cores, the oldest entry first: core, entry address, entry (10 R269). -/
  blockTlb    : List (Nat × Nat × Word)
  /-- The invalidation that runs (08 R219; 20 R445). -/
  invalidating : Option Invalidation := none
  tier        : Tier
  slotsUsed   : List Nat
  /-- Teams pending relaunch, in order (05 R149). -/
  relaunch    : List Nat
  /-- MSI-X signals sent for the fault queue and the error log (20 R447). -/
  msiFault    : Nat
  msiErr      : Nat
  words       : List PendingWord
  snap        : SnapWindow
  /-- Clock at the partition's start (06 R179). -/
  epoch       : Nat
  deriving DecidableEq, Repr

/-- The context of a partition that a swap exchanges with the context shadows (16 R390, 01 R22). -/
structure Context where
  grids   : List Grid := []
  teams   : List Team := []
  groups  : List Group := []
  fifos   : List Fifo := []
  feeders : List Feeder := []
  copies  : List CopyQueue := []
  mats    : List MatQueue := []
  latches : List Latch := []
  homes   : List Home := []
  flight  : List Request := []
  relaunch : List Nat := []
  /-- The group and fragment ids parked in DEQ, by work queue (05 R137). -/
  parked  : List (List (Nat × Nat)) := []
  deriving DecidableEq, Repr

/-- A context in the context shadows of the cores of some clusters, with the partition it belongs to (16 R390). -/
structure Saved where
  part     : Nat
  clusters : List Nat
  ctx      : Context
  deriving DecidableEq, Repr

/-- A spilled context in memory of the host, with its version and check word; `filled` once it is back in the shadows (16 R390). -/
structure Image where
  addr    : Dword
  version : BitVec 16
  check   : Word
  saved   : Saved
  filled  : Bool := false
  deriving DecidableEq, Repr

/-- An Abaja port (19 R425 to R428). -/
structure Port where
  num     : Nat
  up      : Bool := false
  version : BitVec 16 := 0
  peer    : BitVec 12 := 0
  downs   : BitVec 16 := 0
  owner   : Option Nat := none
  /-- Next sequence number to send, by virtual lane, and the flits not yet acknowledged: virtual lane, sequence, times sent (0 while the
  lane is paused). -/
  nextSeq : List (BitVec 12) := [0, 0, 0, 0]
  unacked : List (BitVec 2 × BitVec 12 × Nat) := []
  /-- What the answers among them say, by sequence number on the response lane. -/
  answers : List (BitVec 12 × Answer) := []
  /-- Next sequence number expected, by virtual lane, good flits that have come ahead of it, and the requests delivered and not yet
  performed, oldest first. -/
  expect  : List (BitVec 12) := [0, 0, 0, 0]
  early   : List (BitVec 2 × BitVec 12 × FlitBody) := []
  rx      : List RemoteRequest := []
  /-- The acknowledgement that left the port last: virtual lane and sequence number of a good flit (19 R426). -/
  ackSent : Option (BitVec 2 × BitVec 12) := none
  /-- Virtual lanes on which the partner has paused this side, and on which this side has paused the partner. -/
  paused  : List (BitVec 2) := []
  pausing : List (BitVec 2) := []
  deriving DecidableEq, Repr

/-- The attestation quote window (20 R456). -/
structure Quote where
  version   : BitVec 16 := 0
  status    : Byte := 0
  index     : Word := 0
  nonce     : BitVec 256 := 0
  firmware  : BitVec 256 := 0
  config    : BitVec 256 := 0
  security  : Word := 0
  /-- MODEL: whether the window holds a signature, and the number of the free value that it is. -/
  signature : Option Nat := none
  deriving DecidableEq, Repr

/-- The device function (20 R443, R455, R456) and what outlives a reset. -/
structure Device where
  powered   : Bool
  stage     : Nat
  failCause : Byte
  /-- Security version of the active image, its hash, an image written for the next reset, and the one that this bring-up verifies. -/
  version   : Word
  digest    : BitVec 256
  pending   : Option Firmware
  loading   : Option Firmware := none
  /-- The monotonic counters: security counter and next signature index. -/
  security  : Word
  sigIndex  : Nat
  quote     : Quote
  /-- This device's id in its fabric domain (19 R429). -/
  fabricId  : BitVec 12
  ports     : List Port
  /-- Host ports behind which the pool does not complete the accesses of the next turn (19 R435). -/
  poolDown  : List Nat
  snap      : SnapWindow
  /-- Snapshot registers by (kind, unit, register), live and latched (20 R454); a register not listed reads 0. -/
  live      : List ((Nat × Nat × Nat) × Dword)
  latched   : List ((Nat × Nat × Nat) × Dword)
  /-- The HDM decoders of the host ports as the host has set them up, up to 8 a port (19 R434). -/
  hdm       : List HdmDecoder := []
  /-- What the last host access returned (19 R434). -/
  hostLatch : List Byte
  deriving DecidableEq, Repr

/-- One turn of the machine (MODEL): an event happens, or a quadrant issues; `busy` names fragments that are not ready for reasons
of time, which the model does not hold. -/
inductive Turn where
  | event (i : Instr)
  | issue (core quadrant : Nat) (busy : List Nat)
  deriving DecidableEq, Repr

/-- The state of the Harette H7. -/
structure State where
  dev     : Device
  /-- Memory bytes by location key; an unlisted byte reads 0. -/
  mem     : Cells
  /-- 16-byte words (location key / 16) that hold an uncorrectable error (08 R223, R224). -/
  memErr  : List Nat
  parts   : List Part
  grids   : List Grid
  teams   : List Team
  groups  : List Group
  fifos   : List Fifo
  feeders : List Feeder
  copies  : List CopyQueue
  mats    : List MatQueue
  latches : List Latch
  homes   : List Home
  /-- Requests sent and not yet arrived at their homes. -/
  flight  : List Request
  /-- Saved contexts in the context shadows, and spilled images in host memory (16 R390). -/
  shadow  : List Saved
  images  : List Image
  /-- MODEL: the turns to come, the issuing group and fragment, steps so far, the clock, free values drawn, next id. -/
  agenda  : List Turn
  cur     : Option (Nat × Nat)
  tick    : Nat
  clock   : Nat
  free    : Nat
  nextId  : Nat
  deriving DecidableEq, Repr

/-- The device right after reset: powered, bring-up at stage 1, every port down and unassigned (20 R443).  Values the spec does not
give are zero: DESIGN CHOICE, notes/assumptions/1.md. -/
def Device.reset : Device :=
  { powered := true, stage := 1, failCause := 0, version := 0, digest := 0, pending := none, security := 0, sigIndex := 0,
    quote := {}, fabricId := 0, ports := (List.range 64).map fun n => { num := n }, poolDown := [], snap := {}, live := [],
    latched := [], hostLatch := [] }

/-- The machine right after reset (20 R443): memory lists nothing (every byte of tier 0 is written zero at stage 2), no partition
exists, and so no grid, team, group or queue. -/
def State.reset : State :=
  { dev := Device.reset, mem := [], memErr := [], parts := [], grids := [], teams := [], groups := [], fifos := [], feeders := [],
    copies := [], mats := [], latches := [], homes := [], flight := [], shadow := [], images := [], agenda := [], cur := none,
    tick := 0, clock := 0, free := 0, nextId := 1 }

end Sys2Proof.Machine
end

