-- ==== Sys2Proof/Machine/Num.lean ====
section
/-!
DEFINITION. The number formats and arithmetic rules (04): exact numbers, decoding and rounding for every format, the arithmetic
tails of MODW (03 R77), scale selection, and the functions that MMAS and VFSFU need.
-/

namespace Sys2Proof.Machine

/-- Bits needed for a natural number; 0 for 0. -/
def bitLen (n : Nat) : Nat := if n = 0 then 0 else Nat.log2 n + 1

/-- 2^k as a natural number. -/
def pow2 (k : Nat) : Nat := 1 <<< k

/-- A signed view of a word of `w` bits (00, sext). -/
def toSigned (w n : Nat) : Int := if n < pow2 (w - 1) then n else (n : Int) - (pow2 w : Nat)

/-- An integer modulo 2^w. -/
def wrapNat (w : Nat) (x : Int) : Nat := (x % ((pow2 w : Nat) : Int)).toNat

/-- An integer modulo 2^32. -/
def wrap32 (x : Int) : Word := BitVec.ofNat 32 (wrapNat 32 x)

/-- An integer clamped to [lo, hi]. -/
def clampInt (lo hi x : Int) : Int := if x < lo then lo else if hi < x then hi else x

/-- The smallest and largest integer of a type. -/
def intRange (signed : Bool) (w : Nat) : Int × Int :=
  if signed then (-((pow2 (w - 1) : Nat) : Int), ((pow2 (w - 1) : Nat) : Int) - 1) else (0, ((pow2 w : Nat) : Int) - 1)

/-- An integer saturated to a type (03 R77). -/
def saturate (signed : Bool) (w : Nat) (x : Int) : Int := clampInt (intRange signed w).1 (intRange signed w).2 x

namespace Num

/-- +0 and -0. -/
def zero (neg : Bool) : Num := .fin neg 0 0

/-- An exact integer. -/
def ofInt (x : Int) : Num := .fin (x < 0) x.natAbs 0

/-- 2^k. -/
def twoPow (k : Int) : Num := .fin false 1 k

/-- Sign flipped; a NaN stays. -/
def neg : Num → Num
  | .nan => .nan
  | .inf n => .inf (!n)
  | .fin n m e => .fin (!n) m e

/-- The sign bit. -/
def sign : Num → Bool
  | .nan => false
  | .inf n => n
  | .fin n _ _ => n

/-- A NaN. -/
def isNan : Num → Bool
  | .nan => true
  | _ => false

/-- An infinity. -/
def isInf : Num → Bool
  | .inf _ => true
  | _ => false

/-- A zero. -/
def isZero : Num → Bool
  | .fin _ 0 _ => true
  | _ => false

/-- Neither a NaN nor an infinity. -/
def isFinite : Num → Bool
  | .fin .. => true
  | _ => false

/-- Multiplied by 2^k, exactly. -/
def scale (x : Num) (k : Int) : Num :=
  match x with
  | .fin n m e => .fin n m (e + k)
  | y => y

/-- The mantissas of two finite numbers at their lower exponent, as signed integers. -/
def align (n1 : Bool) (m1 : Nat) (e1 : Int) (n2 : Bool) (m2 : Nat) (e2 : Int) : Int × Int × Int :=
  let e := if e1 ≤ e2 then e1 else e2
  let a : Int := ((m1 <<< (e1 - e).toNat : Nat) : Int)
  let b : Int := ((m2 <<< (e2 - e).toNat : Nat) : Int)
  (if n1 then -a else a, if n2 then -b else b, e)

/-- The exact sum; the sign of an exact zero follows R96 in the rounding mode (`down` for RDN). -/
def add (down : Bool) : Num → Num → Num
  | .nan, _ => .nan
  | _, .nan => .nan
  | .inf a, .inf b => if a = b then .inf a else .nan
  | .inf a, _ => .inf a
  | _, .inf b => .inf b
  | .fin n1 m1 e1, .fin n2 m2 e2 =>
    if m1 = 0 ∧ m2 = 0 then .fin (if n1 = n2 then n1 else down) 0 0
    else
      let r := align n1 m1 e1 n2 m2 e2
      let x := r.1 + r.2.1
      if x = 0 then .fin down 0 0 else .fin (x < 0) x.natAbs r.2.2

/-- The exact product (R96: a zero takes the exclusive OR of the signs). -/
def mul : Num → Num → Num
  | .nan, _ => .nan
  | _, .nan => .nan
  | .inf a, .inf b => .inf (a != b)
  | .inf a, .fin n m _ => if m = 0 then .nan else .inf (a != n)
  | .fin n m _, .inf a => if m = 0 then .nan else .inf (a != n)
  | .fin n1 m1 e1, .fin n2 m2 e2 => .fin (n1 != n2) (m1 * m2) (e1 + e2)

/-- Less than, on numbers that are not NaN; zeros are equal. -/
def lt : Num → Num → Bool
  | .nan, _ => false
  | _, .nan => false
  | .inf a, .inf b => a && !b
  | .inf a, _ => a
  | _, .inf b => !b
  | .fin n1 m1 e1, .fin n2 m2 e2 =>
    let r := align n1 m1 e1 n2 m2 e2
    r.1 < r.2.1

/-- Equality of value; zeros are equal, a NaN equals nothing. -/
def eq (x y : Num) : Bool := !x.isNan && !y.isNan && !(lt x y) && !(lt y x)

/-- Less than with -0 below +0, as the minimum and maximum functions order (07 R196). -/
def ltOrd (x y : Num) : Bool := lt x y || (x.isZero && y.isZero && x.sign && !y.sign)

end Num

/-- Whether a magnitude is rounded up: `rem` of `unit` is cut off, the kept value is odd or even (04 R92; rnd as MODW). -/
def roundsUp (rnd : BitVec 2) (neg odd : Bool) (rem unit : Nat) : Bool :=
  if rem = 0 then false
  else if rnd = 0 then decide (unit < 2 * rem) || (decide (2 * rem = unit) && odd)
  else if rnd = 1 then false
  else if rnd = 2 then neg
  else !neg

/-- A magnitude m * 2^e rounded to a multiple of 2^q. -/
def roundAt (rnd : BitVec 2) (neg : Bool) (m : Nat) (e q : Int) : Nat :=
  if q ≤ e then m <<< (e - q).toNat
  else
    let k := (q - e).toNat
    let t := m >>> k
    if roundsUp rnd neg (t % 2 == 1) (m % pow2 k) (pow2 k) then t + 1 else t

/-- A number rounded to an integer (04 R98); none for a NaN or an infinity. -/
def Num.toInt (rnd : BitVec 2) : Num → Option Int
  | .fin n m e =>
    let t : Int := (roundAt rnd n m e 0 : Nat)
    some (if n then -t else t)
  | _ => none

/-- A floating-point format (04 R87, R89). -/
structure FloatFmt where
  bits   : Nat
  mbits  : Nat
  bias   : Nat
  /-- Code of the largest finite magnitude, of the infinity (none in f8e4 and f4), and of the canonical NaN (none in f4). -/
  maxFin : Nat
  infc   : Option Nat
  nanc   : Option Nat
  deriving DecidableEq, Repr

def fmtF64 : FloatFmt := ⟨64, 52, 1023, 0x7FEFFFFFFFFFFFFF, some 0x7FF0000000000000, some 0x7FF8000000000000⟩
def fmtF32 : FloatFmt := ⟨32, 23, 127, 0x7F7FFFFF, some 0x7F800000, some 0x7FC00000⟩
def fmtF16 : FloatFmt := ⟨16, 10, 15, 0x7BFF, some 0x7C00, some 0x7E00⟩
def fmtBf16 : FloatFmt := ⟨16, 7, 127, 0x7F7F, some 0x7F80, some 0x7FC0⟩
def fmtF8e4 : FloatFmt := ⟨8, 3, 7, 0x7E, none, some 0x7F⟩
def fmtF8e5 : FloatFmt := ⟨8, 2, 15, 0x7B, some 0x7C, some 0x7E⟩
def fmtF4 : FloatFmt := ⟨4, 1, 1, 0x7, none, none⟩

/-- The exponent of the least significant bit of a subnormal. -/
def FloatFmt.qmin (f : FloatFmt) : Int := 1 - (f.bias : Int) - (f.mbits : Int)

/-- The number a code denotes (04 R88, R89). -/
def FloatFmt.decode (f : FloatFmt) (code : Nat) : Num :=
  let c := code % pow2 f.bits
  let neg := c / pow2 (f.bits - 1) == 1
  let mag := c % pow2 (f.bits - 1)
  if mag ≤ f.maxFin then
    let e := mag / pow2 f.mbits
    let m := mag % pow2 f.mbits
    if e = 0 then .fin neg m f.qmin else .fin neg (m + pow2 f.mbits) (f.qmin + (e : Int) - 1)
  else if f.infc = some mag then .inf neg
  else .nan

/-- The sign bit of a format in place. -/
def FloatFmt.signBit (f : FloatFmt) (neg : Bool) : Nat := if neg then pow2 (f.bits - 1) else 0

/-- The magnitude code of a rounded finite number, unbounded above: codes ascend with magnitude. -/
def FloatFmt.magCode (f : FloatFmt) (rnd : BitVec 2) (neg : Bool) (m : Nat) (e : Int) : Nat :=
  if m = 0 then 0
  else
    let top : Int := e + (bitLen m : Int) - 1
    let q := if top - (f.mbits : Int) < f.qmin then f.qmin else top - (f.mbits : Int)
    roundAt rnd neg m e q + ((q - f.qmin).toNat <<< f.mbits)

/-- Whether an overflow gives an infinity rather than the largest finite value (04 R93). -/
def overflowInf (rnd : BitVec 2) (neg : Bool) : Bool := if rnd = 0 then true else if rnd = 1 then false else if rnd = 2 then neg else !neg

/-- What stands for an infinity in a format: the infinity, or under saturation or in f4 the largest finite value, and in f8e4 the NaN
(04 R93, R94). -/
def FloatFmt.infCode (f : FloatFmt) (sat neg : Bool) : Nat :=
  match f.infc, f.nanc with
  | some c, _ => f.signBit neg + (if sat then f.maxFin else c)
  | none, some n => if sat then f.signBit neg + f.maxFin else n
  | none, none => f.signBit neg + f.maxFin

/-- A number rounded to a format (04 R92 to R95): one rounding, then the overflow rules. -/
def FloatFmt.encode (f : FloatFmt) (rnd : BitVec 2) (sat : Bool) (x : Num) : Nat :=
  match x with
  | .nan => f.nanc.getD 0
  | .inf n => f.infCode sat n
  | .fin n m e =>
    let c := f.magCode rnd n m e
    if c ≤ f.maxFin then f.signBit n + c
    else if overflowInf rnd n then f.infCode sat n
    else f.signBit n + f.maxFin

/-- A number rounded to f32 with RNE, as a number. -/
def rneF32 (x : Num) : Num := fmtF32.decode (fmtF32.encode 0 false x)

/-- A number rounded to f32 with RNE, as a word. -/
def f32OfNum (x : Num) : Word := BitVec.ofNat 32 (fmtF32.encode 0 false x)

/-- The number of an f32 word. -/
def numOfF32 (w : Word) : Num := fmtF32.decode w.toNat

/-- A subnormal or zero code becomes the zero of its sign (ftz, 04 R97). -/
def FloatFmt.flush (f : FloatFmt) (code : Nat) : Nat :=
  let c := code % pow2 f.bits
  let mag := c % pow2 (f.bits - 1)
  if mag < pow2 f.mbits then c - mag else c

/-- The floating-point tail of R77: round in the mode, then sat, then clamp. -/
def floatTail (f : FloatFmt) (rnd : BitVec 2) (sat clamp : Bool) (y : Num) : Nat :=
  let c := f.encode rnd sat y
  if clamp then
    let v := f.decode c
    if v.isNan || v.isZero || v.sign then 0
    else if Num.lt (Num.ofInt 1) v then f.encode 0 false (Num.ofInt 1) else c
  else c

/-- The integer tail of R77 for an exact x: scale by 2^psc, rounding only when that divides; then saturate or wrap. -/
def intTail (signed : Bool) (w : Nat) (psc : Int) (rnd : BitVec 2) (sat : Bool) (x : Int) : Nat :=
  let y := (Num.toInt rnd ((Num.ofInt x).scale psc)).getD 0
  wrapNat w (if sat then saturate signed w y else y)

/-- A number converted to an integer type (04 R98): rounded, saturated whatever sat says, NaN to 0. -/
def numToIntSat (signed : Bool) (w : Nat) (rnd : BitVec 2) (x : Num) : Int :=
  match x with
  | .nan => 0
  | .inf n => if n then (intRange signed w).1 else (intRange signed w).2
  | y => saturate signed w ((y.toInt rnd).getD 0)

/-- The minimum of two codes of a format, by VFMIN: a NaN gives the canonical NaN, -0 is below +0, bits kept (07 R196). -/
def FloatFmt.minCode (f : FloatFmt) (x y : Nat) : Nat :=
  let a := f.decode x
  let b := f.decode y
  if a.isNan || b.isNan then f.nanc.getD 0 else if Num.ltOrd b a then y else x

/-- The maximum, by VFMAX (07 R196). -/
def FloatFmt.maxCode (f : FloatFmt) (x y : Nat) : Nat :=
  let a := f.decode x
  let b := f.decode y
  if a.isNan || b.isNan then f.nanc.getD 0 else if Num.ltOrd a b then y else x

/-- VFMINN and VFMAXN: one NaN gives the other operand, two give the canonical NaN (07 R196). -/
def FloatFmt.minnCode (f : FloatFmt) (isMax : Bool) (x y : Nat) : Nat :=
  let a := f.decode x
  let b := f.decode y
  if a.isNan && b.isNan then f.nanc.getD 0
  else if a.isNan then y else if b.isNan then x
  else if isMax then f.maxCode x y else f.minCode x y

/-! ### p6 (04 R104, R105) -/

/-- The value of a p6 code; bits [7:6] are ignored. -/
def p6Value (code : Nat) : Num :=
  let c := code % 64
  if c / 4 = 15 then Num.zero false else .fin false (4 + c % 4) (-((c / 4 : Nat) : Int) - 2)

/-- A number rounded to p6: nearest, ties to the even fraction, with the edge cases of R105. -/
def p6Code (x : Num) : Nat :=
  match x with
  | .nan => 0x3C
  | .inf n => if n then 0x3C else 0x03
  | .fin n m e =>
    if n || m = 0 then 0x3C
    else if Num.lt (.fin false 7 (-2)) x then 0x03
    else
      let top : Int := e + (bitLen m : Int) - 1
      if top < -14 then (if Num.lt (.fin false 1 (-15)) x then 0x38 else 0x3C)
      else
        let r := roundAt 0 false m e (top - 2)
        let k := (-top).toNat
        if r = 8 then (if k = 0 then 0x03 else 4 * (k - 1)) else 4 * k + (r - 4)

/-! ### Element formats by code (04 R86) -/

/-- The element formats: floating point, integer, p6, plane (with its number of planes). -/
inductive Elem where
  | float (f : FloatFmt)
  | int (signed : Bool) (w : Nat)
  | p6
  | plane (n : Nat)
  deriving DecidableEq, Repr

/-- The element format of a format code; none for 0 and for every code not listed (04 R86). -/
def elemOf (code : BitVec 6) : Option Elem :=
  match code.toNat with
  | 0x01 => some (.float fmtF64)
  | 0x02 => some (.float fmtF32)
  | 0x03 => some (.float fmtF16)
  | 0x04 => some (.float fmtBf16)
  | 0x05 => some (.float fmtF8e4)
  | 0x06 => some (.float fmtF8e5)
  | 0x07 => some (.float fmtF4)
  | 0x08 => some .p6
  | 0x10 => some (.int true 8)
  | 0x11 => some (.int false 8)
  | 0x12 => some (.int true 16)
  | 0x13 => some (.int false 16)
  | 0x14 => some (.int true 32)
  | 0x15 => some (.int false 32)
  | 0x16 => some (.int true 64)
  | 0x17 => some (.int false 64)
  | 0x18 => some (.int true 4)
  | 0x19 => some (.int false 4)
  | 0x20 => some (.plane 1)
  | 0x21 => some (.plane 2)
  | 0x22 => some (.plane 3)
  | 0x23 => some (.plane 4)
  | 0x24 => some (.plane 5)
  | 0x25 => some (.plane 6)
  | 0x26 => some (.plane 7)
  | 0x27 => some (.plane 8)
  | _ => none

/-- The width in bits of one element in a register or in memory; of a plane format, over all its planes. -/
def Elem.bits : Elem → Nat
  | .float f => f.bits
  | .int _ w => w
  | .p6 => 8
  | .plane n => 4 * n

/-- The plane formats. -/
def Elem.isPlane : Elem → Bool
  | .plane _ => true
  | _ => false

/-- The value of a code; for a plane format, the code is the signed mantissa of its planes and the value is taken at scale 127 (04 R101). -/
def Elem.value (f : Elem) (code : Nat) : Num :=
  match f with
  | .float f => f.decode code
  | .int s w => Num.ofInt (if s then toSigned w (code % pow2 w) else ((code % pow2 w : Nat) : Int))
  | .p6 => p6Value code
  | .plane n => (Num.ofInt (toSigned (4 * n) (code % pow2 (4 * n)))).scale (1 - 4 * (n : Int))

/-- A number rounded to a format (04 R92 to R98, R105); integer and plane formats saturate, a NaN gives 0 there. -/
def Elem.encode (f : Elem) (rnd : BitVec 2) (sat : Bool) (x : Num) : Nat :=
  match f with
  | .float f => f.encode rnd sat x
  | .int s w => wrapNat w (numToIntSat s w rnd x)
  | .p6 => p6Code x
  | .plane n => wrapNat (4 * n) (numToIntSat true (4 * n) rnd (x.scale (4 * (n : Int) - 1)))

/-- An integer code held to the largest value of its type and sign: the most negative number of a type lies beyond that (04 R109). -/
def largest (signed : Bool) (w : Nat) (i : Int) : Int := if signed then max i (-(intRange signed w).2) else i

/-- A magnitude beyond the format's largest finite value becomes that value of the same sign, in every element format (04 R109): in an integer or
plane format the most negative number lies beyond it, within the range that 09 R246 and 14 R358 name for a plane's integer (DEDUCED,
notes/assumptions/107.md). -/
def Elem.encodeSat (f : Elem) (rnd : BitVec 2) (x : Num) : Nat :=
  match f, x with
  | .float g, .fin n m e => if g.magCode rnd n m e ≤ g.maxFin then g.encode rnd true x else g.signBit n + g.maxFin
  | .int sg w, _ => wrapNat w (largest sg w (numToIntSat sg w rnd x))
  | .plane n, _ => wrapNat (4 * n) (largest true (4 * n) (numToIntSat true (4 * n) rnd (x.scale (4 * (n : Int) - 1))))
  | _, _ => f.encode rnd true x

/-- The unsigned integer formats. -/
def Elem.unsigned : Elem → Bool
  | .int false _ => true
  | _ => false

/-- Whether numbers are those of a block of an unsigned format that holds a negative value: its elements are taken at zero (04 R109). -/
def Elem.takesZero (f : Elem) (xs : List Num) : Bool :=
  f.unsigned && xs.any fun x => match x with | .fin true m _ => m != 0 | _ => false

/-- Flushes a code of a format under ftz (04 R97); only floating-point formats have subnormals. -/
def Elem.flush (f : Elem) (code : Nat) : Nat :=
  match f with
  | .float g => g.flush code
  | _ => code

/-- The exponent of a format's largest binade, for scale selection (04 R109); plane formats follow their own formula. -/
def Elem.topExp : Elem → Int
  | .float f => if f.bits = 4 then 2 else if f.mbits = 3 then 8 else 15
  | .int s w => if w = 8 then (if s then 6 else 7) else (if s then 2 else 3)
  | .p6 => 0
  | .plane _ => -1

/-- The e8 code for a largest finite magnitude A of a block (04 R109). -/
def scaleCode (f : Elem) (a : Num) : Nat :=
  match a with
  | .fin _ m e =>
    if m = 0 then 0
    else (clampInt 0 254 (e + (bitLen m : Int) - 1 - f.topExp + 127)).toNat
  | _ => 0xFF

/-- The larger finite magnitude of two, for the A of R109. -/
def maxMag (a b : Num) : Num :=
  match a, b with
  | .fin _ m e, .fin _ m' e' => if Num.lt (.fin false m e) (.fin false m' e') then .fin false m' e' else .fin false m e
  | .fin _ m e, _ => .fin false m e
  | _, b => b

/-! ### Stochastic rounding (04 R119) -/

/-- Rounds a magnitude m * 2^e at 2^q stochastically: up when v is below floor(2^32 * (x - lo) / (hi - lo)); for a negative number lo is
the larger magnitude. -/
def stochAt (neg : Bool) (v : Word) (m : Nat) (e q : Int) : Nat :=
  if q ≤ e then m <<< (e - q).toNat
  else
    let k := (q - e).toNat
    let t := m >>> k
    let rem := m % pow2 k
    if rem = 0 then t
    else
      -- distance from lo: rem for a positive number, unit - rem for a negative one
      let dist := if neg then pow2 k - rem else rem
      let up := v.toNat < (pow2 32 * dist) / pow2 k
      if neg then (if up then t else t + 1) else (if up then t + 1 else t)

/-- A number rounded stochastically to an integer of a type, saturated (09 R246). -/
def stochInt (signed : Bool) (w : Nat) (v : Word) (x : Num) : Int :=
  match x with
  | .nan => 0
  | .inf n => if n then (intRange signed w).1 else (intRange signed w).2
  | .fin n m e =>
    let t : Int := (stochAt n v m e 0 : Nat)
    saturate signed w (if n then -t else t)

/-- A number rounded stochastically to a floating-point format; overflow as for RNE (04 R119). -/
def FloatFmt.stoch (f : FloatFmt) (sat : Bool) (v : Word) (x : Num) : Nat :=
  match x with
  | .fin n m e =>
    if m = 0 then f.signBit n
    else
      let top : Int := e + (bitLen m : Int) - 1
      let q := if top - (f.mbits : Int) < f.qmin then f.qmin else top - (f.mbits : Int)
      -- beyond the largest finite value there is no neighbour above: overflow as for RNE
      if f.maxFin < f.magCode 1 n m e || Num.lt (f.decode f.maxFin) (.fin false m e) then f.encode 0 sat x
      else f.signBit n + (stochAt n v m e q + ((q - f.qmin).toNat <<< f.mbits))
  | y => f.encode 0 sat y

/-- Stochastic rounding to p6: its neighbours, then R119. -/
def p6Stoch (v : Word) (x : Num) : Nat :=
  match x with
  | .fin false m e =>
    if m = 0 then 0x3C
    else if !(Num.lt x (.fin false 7 (-2))) then 0x03
    else
      let top : Int := e + (bitLen m : Int) - 1
      if top < -14 then (if stochAt false v m e (-14) = 0 then 0x3C else 0x38)
      else
        let r := stochAt false v m e (top - 2)
        let k := (-top).toNat
        if r = 8 then (if k = 0 then 0x03 else 4 * (k - 1)) else 4 * k + (r - 4)
  | y => p6Code y

/-! ### The coordinate generator (04 R120) -/

/-- One round of the generator: the rotations of round i. -/
def rngRound (seedPart tid : Word) (i : Nat) (ry rx : Nat) (xy : Word × Word) : Word × Word :=
  let key := seedPart + BitVec.ofNat 32 (i * 0x6C2DB4A7) + tid
  let x := xy.1 + (xy.2 ^^^ key)
  let y := xy.2.rotateLeft ry ^^^ x
  (x.rotateLeft rx, y)

/-- 64 random bits of a seed, step, tensor id and canonical coordinates (04 R120). -/
def rng (seed : Dword) (step tid row col : Word) : Dword :=
  let lo := seed.extractLsb' 0 32
  let hi := seed.extractLsb' 32 32
  let r0 := rngRound lo tid 0 13 29 (row ^^^ tid.rotateLeft 16, col ^^^ step)
  let r1 := rngRound hi tid 1 24 3 r0
  let r2 := rngRound lo tid 2 7 19 r1
  let r3 := rngRound hi tid 3 19 7 r2
  let r4 := rngRound lo tid 4 3 24 r3
  let r5 := rngRound hi tid 5 29 13 r4
  r5.2 ++ r5.1

/-! ### Fixed point with 320 fraction bits, for functions without exact dyadic results -/

/-- Fraction bits of the fixed-point numbers below. -/
def fxBits : Nat := 320

/-- The product of two fixed-point numbers. -/
def fxMul (a b : Nat) : Nat := (a * b) >>> fxBits

/-- ln 2 as the sum of 1 / (k 2^k). -/
def fxLn2Sum : Nat → Nat
  | 0 => 0
  | k + 1 => (pow2 fxBits >>> (k + 1)) / (k + 1) + fxLn2Sum k

/-- ln 2. -/
def fxLn2 : Nat := fxLn2Sum 340

/-- e^y by its series, `n` terms from term `k` on, for 0 ≤ y < 1. -/
def fxExpSum (y : Nat) : Nat → Nat → Nat → Nat
  | 0, _, _ => 0
  | n + 1, k, term => term + fxExpSum y n (k + 1) (fxMul term y / (k + 1))

/-- e^y for 0 ≤ y < 1. -/
def fxExp (y : Nat) : Nat := fxExpSum y 90 0 (pow2 fxBits)

/-- A finite magnitude as a fixed-point number, cut below. -/
def fxOfMag (m : Nat) (e : Int) : Nat :=
  let s := e + (fxBits : Int)
  if 0 ≤ s then m <<< s.toNat else m >>> (-s).toNat

/-- 2^x for a finite x, to more than 300 bits with a sticky bit below; exact for an integer (07 R201, 15 R373). -/
def exp2Num (neg : Bool) (m : Nat) (e : Int) : Num :=
  if m = 0 then Num.ofInt 1
  else if 11 < e + (bitLen m : Int) then (if neg then .fin false 1 (-4096) else .fin false 1 4096)
  else if 0 ≤ e ∨ m % pow2 (-e).toNat = 0 then
    let k : Int := (roundAt 1 false m e 0 : Nat)
    Num.twoPow (if neg then -k else k)
  else
    -- x = k + f with 0 ≤ f < 1, in fixed point of the operand's own resolution
    let d := (-e).toNat
    let whole := m >>> d
    let frac := m % pow2 d
    let k : Int := if neg then -(whole : Int) - 1 else whole
    let f := if neg then pow2 d - frac else frac
    -- f below 2^-320 still leaves the sticky bit
    let y := fxMul (fxOfMag f e) fxLn2
    .fin false (2 * fxExp y + 1) (k - (fxBits : Int) - 1)

/-- Integer square root by bits, from bit `k` down. -/
def isqrtAux (n : Nat) : Nat → Nat → Nat
  | 0, r => if (r + 1) * (r + 1) ≤ n then r + 1 else r
  | k + 1, r => isqrtAux n k (if (r + pow2 (k + 1)) * (r + pow2 (k + 1)) ≤ n then r + pow2 (k + 1) else r)

/-- The integer square root of n. -/
def isqrt (n : Nat) : Nat := isqrtAux n (bitLen n / 2 + 1) 0

/-- The square root of m * 2^e to more than 300 bits, with a sticky bit when it is not exact. -/
def sqrtNum (m : Nat) (e : Int) : Num :=
  let odd := e % 2 != 0
  let m' := (if odd then 2 * m else m) <<< 640
  let e' := (if odd then e - 1 else e) - 640
  let r := isqrt m'
  if r * r = m' then .fin false r (e' / 2) else .fin false (2 * r + 1) (e' / 2 - 1)

/-- 1 / (m * 2^e) to more than 300 bits, with a sticky bit when it is not exact. -/
def recipNum (neg : Bool) (m : Nat) (e : Int) : Num :=
  let p := fxBits + bitLen m
  let q := pow2 p / m
  if q * m = pow2 p then .fin neg q (-e - (p : Int)) else .fin neg (2 * q + 1) (-e - (p : Int) - 1)

/-- The quotient of two numbers, ready to be rounded once (14 R359). -/
def Num.div : Num → Num → Num
  | .nan, _ => .nan
  | _, .nan => .nan
  | .inf _, .inf _ => .nan
  | .inf a, y => .inf (a != y.sign)
  | .fin n _ _, .inf b => .fin (n != b) 0 0
  | .fin n1 m1 e1, .fin n2 m2 e2 =>
    if m2 = 0 then (if m1 = 0 then .nan else .inf (n1 != n2))
    else
      let p := 160 + bitLen m2
      let a := m1 <<< p
      let q := a / m2
      if q * m2 = a then .fin (n1 != n2) q (e1 - e2 - (p : Int)) else .fin (n1 != n2) (2 * q + 1) (e1 - e2 - (p : Int) - 1)

/-- arctan(1/n) as the alternating series, `k` terms from index `i` on; `pw` is n^-(2i+1). -/
def fxAtanSum (n : Nat) : Nat → Nat → Nat → Int
  | 0, _, _ => 0
  | k + 1, i, pw =>
    let t : Int := ((pw / (2 * i + 1) : Nat) : Int)
    (if i % 2 = 0 then t else -t) + fxAtanSum n k (i + 1) (pw / (n * n))

/-- π by Machin's formula. -/
def fxPi : Nat :=
  (16 * fxAtanSum 5 150 0 (pow2 fxBits / 5) - 4 * fxAtanSum 239 60 0 (pow2 fxBits / 239)).toNat

/-- The alternating series y^j / j! in steps of two from term `j` on: sine from j = 1, cosine from j = 0. -/
def fxTrigSum (y : Nat) : Nat → Nat → Nat → Bool → Int
  | 0, _, _, _ => 0
  | k + 1, j, term, minus =>
    let t : Int := ((term : Nat) : Int)
    (if minus then -t else t) + fxTrigSum y k (j + 2) (fxMul (fxMul term y) y / ((j + 1) * (j + 2))) (!minus)

/-- sin(2πx) or cos(2πx) for the fraction x = f / 2^320 of a revolution, as a signed fixed-point number. -/
def fxTurn (cosine : Bool) (f : Nat) : Int :=
  let y := fxMul f (2 * fxPi)
  if cosine then fxTrigSum y 60 0 (pow2 fxBits) false else fxTrigSum y 60 1 y false

/-- A signed fixed-point number as a number, with a sticky bit below. -/
def numOfFx (x : Int) : Num := .fin (x < 0) (2 * x.natAbs + 1) (-(fxBits : Int) - 1)

end Sys2Proof.Machine
end

