-- ==== Sys2Proof/Machine/Base.lean ====
section
/-!
DEFINITION. Sparse storage, little-endian bytes, lookups and updates of the state's records, and the registers of a group.
-/

namespace Sys2Proof.Machine

/-! ### Sparse storage -/

/-- The value at key `k`; a key that is not listed holds `d`. -/
def sget {β : Type} (d : β) : List (Nat × β) → Nat → β
  | [], _ => d
  | (k', v) :: r, k => if k = k' then v else if k < k' then d else sget d r k

/-- The storage with `v` at key `k`: keys rising, and no entry that equals `d`. -/
def sset {β : Type} [DecidableEq β] (d : β) : List (Nat × β) → Nat → β → List (Nat × β)
  | [], k, v => if v = d then [] else [(k, v)]
  | (k', v') :: r, k, v =>
    if k < k' then (if v = d then (k', v') :: r else (k, v) :: (k', v') :: r)
    else if k = k' then (if v = d then r else (k, v) :: r)
    else (k', v') :: sset d r k v

/-- Every key is above `lo`, keys rise strictly, and no entry equals `d`. -/
def swf {β : Type} [DecidableEq β] (d : β) : Nat → List (Nat × β) → Bool
  | _, [] => true
  | lo, (k, v) :: r => decide (lo ≤ k) && decide (v ≠ d) && swf d (k + 1) r

/-- The value listed at key `k`. -/
def sfind {β : Type} : List (Nat × β) → Nat → Option β
  | [], _ => none
  | (k', v) :: r, k => if k = k' then some v else if k < k' then none else sfind r k

/-- The storage with `v` listed at key `k`, keys rising. -/
def sput {β : Type} : List (Nat × β) → Nat → β → List (Nat × β)
  | [], k, v => [(k, v)]
  | (k', v') :: r, k, v =>
    if k < k' then (k, v) :: (k', v') :: r else if k = k' then (k, v) :: r else (k', v') :: sput r k v

/-- Memory in canonical form: addresses strictly rising and no entry equal to what an unlisted address reads as, which is 0. -/
def Memory.wf (m : Cells) : Bool := swf 0 0 m

/-- Register storage in canonical form. -/
def Regs.wf (r : Regs) : Bool := swf 0 0 r

/-! ### Bytes -/

/-- A little-endian number of bytes (00 R3). -/
def natOfBytes : List Byte → Nat
  | [] => 0
  | b :: bs => b.toNat + 256 * natOfBytes bs

/-- The `n` low bytes of a number, lowest first (00 R3). -/
def bytesOfNat : Nat → Nat → List Byte
  | 0, _ => []
  | n + 1, x => BitVec.ofNat 8 x :: bytesOfNat n (x / 256)

/-- `n` bytes of a list from an offset, as a number; missing bytes read 0. -/
def fieldOf (bs : List Byte) (off n : Nat) : Nat := natOfBytes ((bs.drop off).take n)

/-- Bits [hi:lo] of a number. -/
def bitsOf (x hi lo : Nat) : Nat := (x >>> lo) % pow2 (hi - lo + 1)

/-- Lane numbers 0 to 31. -/
def lanes : List Nat :=
  [0, 1, 2, 3, 4, 5, 6, 7, 8, 9, 10, 11, 12, 13, 14, 15, 16, 17, 18, 19, 20, 21, 22, 23, 24, 25, 26, 27, 28, 29, 30, 31]

/-- The lanes of a mask, in ascending order. -/
def lanesOf (m : Word) : List Nat := lanes.filter fun i => m.getLsbD i

/-- The mask of a list of lanes. -/
def maskOf (ls : List Nat) : Word := ls.foldl (fun m i => m ||| (1#32 <<< i)) 0

/-- The lowest lane of a mask; 0 when it is empty. -/
def lowestLane (m : Word) : Nat := (lanesOf m).headD 0

/-- The number of lanes in a mask. -/
def popCount (m : Word) : Nat := (lanesOf m).length

/-! ### Records by id -/

/-- The first record with the id. -/
def findBy {α : Type} (key : α → Nat) (l : List α) (k : Nat) : Option α := l.find? fun x => key x == k

/-- The records with the one of `x`'s id replaced by `x`. -/
def putBy {α : Type} (key : α → Nat) (l : List α) (x : α) : List α := l.map fun y => if key y = key x then x else y

/-- The records with a function applied to those of the id. -/
def modBy {α : Type} (key : α → Nat) (l : List α) (k : Nat) (f : α → α) : List α := l.map fun y => if key y = k then f y else y

/-- The position of an id among the partition's, in ascending order of device-wide number (01 R10). -/
def rankIn (l : List Nat) (n : Nat) : Nat := (l.filter fun x => decide (x < n)).length

/-- The id at a position of that order (01 R10). -/
def atRank (l : List Nat) (k : Nat) : Option Nat := l.find? fun x => rankIn l x == k

/-- The image of a saved context, with its version and its check word (16 R390). -/
def sealImage (addr : Dword) (x : Saved) : Image := { addr := addr, version := 1, check := Config.checkWord x, saved := x }

namespace State

def group? (s : State) (g : Nat) : Option Group := findBy Group.id s.groups g
def team? (s : State) (t : Nat) : Option Team := findBy Team.id s.teams t
def grid? (s : State) (g : Nat) : Option Grid := findBy Grid.id s.grids g
def part? (s : State) (p : Nat) : Option Part := findBy Part.id s.parts p
def home? (s : State) (h : Nat) : Option Home := findBy Home.num s.homes h
def setGroup (s : State) (g : Group) : State := { s with groups := putBy Group.id s.groups g }
def setTeam (s : State) (t : Team) : State := { s with teams := putBy Team.id s.teams t }
def setGrid (s : State) (g : Grid) : State := { s with grids := putBy Grid.id s.grids g }
def setPart (s : State) (p : Part) : State := { s with parts := putBy Part.id s.parts p }
def setHome (s : State) (h : Home) : State := { s with homes := putBy Home.num s.homes h }
def modGroup (s : State) (g : Nat) (f : Group → Group) : State := { s with groups := modBy Group.id s.groups g f }
def modTeam (s : State) (t : Nat) (f : Team → Team) : State := { s with teams := modBy Team.id s.teams t f }
def modGrid (s : State) (g : Nat) (f : Grid → Grid) : State := { s with grids := modBy Grid.id s.grids g f }
def modPart (s : State) (p : Nat) (f : Part → Part) : State := { s with parts := modBy Part.id s.parts p f }
def modHome (s : State) (h : Nat) (f : Home → Home) : State := { s with homes := modBy Home.num s.homes h f }

/-- The contexts that are saved, in the shadows or in spilled images that are not back in them (16 R390). -/
def savedContexts (s : State) : List Context :=
  s.shadow.map Saved.ctx ++ (s.images.filter fun i => !i.filled).map fun i => i.saved.ctx

/-- Changes every saved context. -/
def mapSaved (s : State) (f : Saved → Context) : State :=
  { s with
    shadow := s.shadow.map fun x => { x with ctx := f x }
    images := s.images.map fun i => if i.filled then i else sealImage i.addr { i.saved with ctx := f i.saved } }

/-- The grids and teams of the machine, those of saved contexts too. -/
def allGrids (s : State) : List Grid := s.grids ++ s.savedContexts.flatMap Context.grids
def allTeams (s : State) : List Team := s.teams ++ s.savedContexts.flatMap Context.teams

/-- Whether a team belongs to a grid, in the machine or in a saved context. -/
def teamOf (s : State) (t grid : Nat) : Bool := s.allTeams.any fun x => x.id == t && x.grid == grid

/-- A fresh id. -/
def fresh (s : State) : Nat × State := (s.nextId, { s with nextId := s.nextId + 1 })

/-- Adds to a snapshot register (20 R454). -/
def count (s : State) (kind unit reg n : Nat) : State :=
  let k := (kind, unit, reg)
  let l := s.dev.live
  let l' := if l.any (fun x => x.1 == k) then l.map (fun x => if x.1 == k then (k, x.2 + BitVec.ofNat 64 n) else x)
            else l ++ [(k, BitVec.ofNat 64 n)]
  { s with dev := { s.dev with live := l' } }

end State

namespace Group

def frag? (g : Group) (f : Nat) : Option Frag := findBy Frag.id g.frags f
def setFrag (g : Group) (f : Frag) : Group := { g with frags := putBy Frag.id g.frags f }
def modFrag (g : Group) (f : Nat) (h : Frag → Frag) : Group := { g with frags := modBy Frag.id g.frags f h }

/-! ### Registers (03 R59 to R66) -/

/-- Scalar register n. -/
def getS (g : Group) (n : Nat) : Word := sget 0 g.s n

/-- A scalar write sets the whole register (03 R60). -/
def setS (g : Group) (n : Nat) (x : Word) : Group := { g with s := sset 0 g.s n x }

/-- The 64-bit value of a scalar pair, the low word in the even register (03 R59). -/
def getPair (g : Group) (n : Nat) : Dword := g.getS (n + 1) ++ g.getS n

/-- Writes a scalar pair, the low word in the even register. -/
def setPair (g : Group) (n : Nat) (x : Dword) : Group := (g.setS n (x.extractLsb' 0 32)).setS (n + 1) (x.extractLsb' 32 32)

/-- Lane i of absolute vector register r. -/
def getV (g : Group) (r i : Nat) : Word := sget 0 g.v (32 * r + i)

/-- Writes lane i of absolute vector register r. -/
def setV (g : Group) (r i : Nat) (x : Word) : Group := { g with v := sset 0 g.v (32 * r + i) x }

/-- The absolute register a field names under the window (03 R62). -/
def abs (g : Group) (field : BitVec 7) : Nat := g.window + field.toNat

/-- The 64-bit element of a vector pair at a lane, the low word in the first register (07 R181). -/
def getV64 (g : Group) (r i : Nat) : Dword := g.getV (r + 1) i ++ g.getV r i

/-- Writes a 64-bit element. -/
def setV64 (g : Group) (r i : Nat) (x : Dword) : Group := (g.setV r i (x.extractLsb' 0 32)).setV (r + 1) i (x.extractLsb' 32 32)

/-- A predicate register as a word of lanes; p0 reads all true (03 R59). -/
def getP (g : Group) (n : Nat) : Word := if n = 0 then 0xFFFFFFFF#32 else sget 0 g.p n

/-- A predicate write changes the lanes of the mask; a write to p0 is ignored (03 R59, R60). -/
def setP (g : Group) (n : Nat) (mask x : Word) : Group :=
  if n = 0 then g else { g with p := sset 0 g.p n ((g.getP n &&& ~~~mask) ||| (x &&& mask)) }

/-- Writes a function of the lane to a vector register, in the lanes listed (03 R60). -/
def setLanes (g : Group) (r : Nat) (ls : List Nat) (f : Nat → Word) : Group :=
  ls.foldl (fun g' i => g'.setV r i (f i)) g

/-- Writes a 64-bit function of the lane to a vector pair, in the lanes listed. -/
def setLanes64 (g : Group) (r : Nat) (ls : List Nat) (f : Nat → Dword) : Group :=
  ls.foldl (fun g' i => g'.setV64 r i (f i)) g

/-- Word (row, col) of accumulator tile k (03 R68). -/
def getAcc (g : Group) (k row col : Nat) : Word := sget 0 g.acc (1024 * k + 32 * row + col)

/-- Writes word (row, col) of accumulator tile k. -/
def setAcc (g : Group) (k row col : Nat) (x : Word) : Group := { g with acc := sset 0 g.acc (1024 * k + 32 * row + col) x }

/-- A tile handle; none when it is unbound (03 R60). -/
def handle? (g : Group) (t : Nat) : Option Handle := findBy Handle.num g.handles t

/-- Binds a tile handle, or changes it. -/
def setHandle (g : Group) (h : Handle) : Group :=
  { g with
    handles := if g.handles.any (fun x => x.num == h.num) then putBy Handle.num g.handles h else g.handles ++ [h]
    loose := g.loose.filter fun x => x.num != h.num }

/-- Applies the words of a result that lands (03 R64, R81). -/
def applyWrites (g : Group) (ws : List RegWrite) : Group :=
  ws.foldl (fun g' w => match w.reg with | .v n => g'.setV n w.lane w.val | .s n => g'.setS n w.val) g

/-- The system right of the group's launch is its grid's (05 R130); a service group has none. -/
def rights (g : Group) (sys : Bool) : Rights := { part := g.part, sys := match g.role with | .ordinary => sys | .service .. => false }

end Group

namespace State

/-- The grid of a group; none for a service group. -/
def gridOf (s : State) (g : Group) : Option Grid :=
  match g.role with
  | .service .. => none
  | .ordinary => (s.team? g.team).bind fun t => s.grid? t.grid

/-- A system grid: kind bit [4] (05 R130). -/
def isSysGroup (s : State) (g : Group) : Bool :=
  match g.role with
  | .service .. => false
  | .ordinary => match s.gridOf g with | none => false | some d => d.record.kind.getLsbD 4

/-- The rights a group's own accesses are checked with; a method acts with the rights of its binding (11 R284). -/
def rightsOf (s : State) (g : Group) : Rights :=
  match g.role with
  | .ordinary => { part := g.part, sys := s.isSysGroup g }
  | .service h sg =>
    match (s.home? h).bind fun x => x.batches.find? fun b => b.sg == sg with
    | none => { part := g.part, sys := false }
    | some b => b.rights

/-- The device-wide core a group is on; none for a service group or an evicted team. -/
def coreOf (s : State) (g : Group) : Option Nat :=
  match g.role with
  | .service .. => none
  | .ordinary => (s.team? g.team).bind fun t => match t.place with | .core n => some n | _ => none

/-- Bits [29:0] of a source id, and the device-wide id of a requester: core * 1,024 + group slot, or home * 4 + service group
(08 R221, 11 R285). -/
def slotId (s : State) (g : Group) : Nat :=
  match g.role with
  | .service h sg => h * 4 + sg
  | .ordinary => (s.coreOf g).getD 0 * 1024 + g.slot

/-- The Ephemeris grid of a group, with its phase, when its grid runs in that mode (17 R399). -/
def ephGrid (s : State) (g : Group) : Option Grid :=
  match s.gridOf g with
  | some d => if d.phase.isSome then some d else none
  | none => none

/-- Groups per team of a group's team, as its grid's record gives it. -/
def groupsPerTeam (s : State) (g : Group) : Nat := match s.gridOf g with | none => 1 | some d => d.record.groups.toNat

/-- The grid-wide group id of a group (05 R122). -/
def gridWideId (s : State) (g : Group) : Nat :=
  match s.team? g.team with
  | none => g.num
  | some t => t.num * s.groupsPerTeam g + g.num

end State

/-- The next number of a count that starts at 1 and skips 0 on wrapping (05 R127, 08 R221, 10 R262, 14 R353, 20 R448). -/
def nextNumber (n : Word) : Word := if n = 0xFFFFFFFF#32 then 1 else n + 1

/-- Sequence order modulo 2^32 within a distance of 2^31: a has come no later than b (10 R262, 14 R353). -/
def seqLe (a b : Word) : Bool := decide ((b - a).toNat < pow2 31)

end Sys2Proof.Machine
end

