-- ==== Sys2Proof/Machine/Memory.lean ====
section
/-!
DEFINITION. Memory: location keys, translation and its checks (08 R208 to R219), reads in a group's view, writes and what they wake,
the fault queue and the error log (08 R221, 20 R447, R448).
-/

namespace Sys2Proof.Machine

/-! ### Location keys: one numbering for every memory byte -/

/-- The key of a tier-1 byte: the 58-bit frame address, host port in bit 57 (19 R430). -/
def poolKey (a : Nat) : Nat := pow2 58 + a

/-- The key of a byte of another device's tier-0 memory: device id and physical address (19 R430). -/
def remoteKey (dev a : Nat) : Nat := pow2 60 + dev * pow2 46 + a

/-- The key of a byte of another device named by a virtual address of a hash window (19 R431). -/
def windowKey (dev va : Nat) : Nat := pow2 70 + dev * pow2 57 + va

/-- The tier of a location key. -/
def keyTier (k : Nat) : Nat := if k < pow2 58 then 0 else if k < pow2 60 then 1 else 3

/-- Whether a location lies in a pool, where an atomic access reads in one access and writes in another (19 R436). -/
def Loc.pooled (l : Loc) : Bool := match l with | .mem k => keyTier k == 1 | .slice .. => false

/-- The device of a tier-3 key. -/
def keyDevice (k : Nat) : Nat := if pow2 70 ≤ k then (k - pow2 70) / pow2 57 else (k - pow2 60) / pow2 46

/-- The location `n` bytes further. -/
def Loc.plus : Loc → Nat → Loc
  | .mem k, n => .mem (k + n)
  | .slice t o, n => .slice t (o + n)

/-! ### Plain reads -/

/-- A byte of memory (20 R443: zero until written). -/
def readKey (s : State) (k : Nat) : Byte := sget 0 s.mem k

/-- `n` bytes of memory. -/
def readKeys (s : State) (k n : Nat) : List Byte := (List.range n).map fun i => readKey s (k + i)

/-- A byte of a slice: what was written, or the undefined byte (08 R210). -/
def sliceByte (t : Team) (off : Nat) : Byte := (sfind t.slice off).getD (Config.sliceByte t.id off)

/-- The offset of a location within a range of `n` bytes, when it lies there. -/
def offsetIn (base : Loc) (n : Nat) (l : Loc) : Option Nat :=
  match base, l with
  | .mem x, .mem y => if x ≤ y ∧ y < x + n then some (y - x) else none
  | .slice t x, .slice u y => if t = u ∧ x ≤ y ∧ y < x + n then some (y - x) else none
  | _, _ => none

/-- The 16-byte word that holds a location. -/
def Loc.word (l : Loc) : Loc := match l with | .mem k => .mem (k / 16 * 16) | .slice t o => .slice t (o / 16 * 16)

/-- The bits of a byte that a piece writes. -/
def Piece.bits (p : Piece) (l : Loc) : Byte :=
  match offsetIn p.loc p.bytes.length l with
  | none => 0
  | some o => if p.mask = [] then 0xFF#8 else p.mask.getD o 0

/-- Whether the pieces of one store together cover the 16-byte word of a location whole: the lanes of an access that fall into one line are one
request (08 R215, R224). -/
def coversWord (ps : List Piece) (l : Loc) : Bool :=
  (List.range 16).all fun i => ps.foldl (fun m p => m ||| p.bits (l.word.plus i)) 0#8 == 0xFF#8

/-- A byte after a piece of a store: the bits of its mask take the piece's byte (08 R227, R232). -/
def Piece.onto (p : Piece) (l : Loc) (b : Byte) : Byte :=
  match offsetIn p.loc p.bytes.length l with
  | none => b
  | some o =>
    let m := if p.mask = [] then 0xFF#8 else p.mask.getD o 0
    (b &&& ~~~m) ||| (p.bytes.getD o 0 &&& m)

/-! ### Atomic operations (12 R309) -/

/-- The result of an atomic operation on an old value (12 R309): operation, type code, operands. -/
def atomicNew (op t : Nat) (old op0 op1 : Nat) : Nat :=
  let w := if t = 2 ∨ t = 3 ∨ t = 5 then 64 else 32
  let m := pow2 w
  let signed := t = 0 ∨ t = 2
  let sv := fun x => toSigned w x
  let fmt : Option FloatFmt := match t with | 4 => some fmtF32 | 5 => some fmtF64 | 6 => some fmtF16 | 7 => some fmtBf16 | _ => none
  let each := fun (f : FloatFmt) (h : Nat → Nat → Nat) =>
    if t = 6 ∨ t = 7 then h (old % pow2 16) (op0 % pow2 16) + pow2 16 * h (old / pow2 16 % pow2 16) (op0 / pow2 16 % pow2 16)
    else h (old % m) (op0 % pow2 f.bits)
  match op with
  | 0 => match fmt with
    | none => (old + op0) % m
    | some f => each f fun x y => f.encode 0 false (Num.add false (f.decode x) (f.decode y))
  | 1 => match fmt with
    | none => if signed then (if sv old ≤ sv op0 then old else op0) else min old op0
    | some f => each f fun x y => f.minCode x y
  | 2 => match fmt with
    | none => if signed then (if sv op0 ≤ sv old then old else op0) else max old op0
    | some f => each f fun x y => f.maxCode x y
  | 3 => old &&& op0
  | 4 => old ||| op0
  | 5 => old ^^^ op0
  | 6 => op0
  | 7 => if old = op0 then op1 else old
  | 8 => if op0 ≤ old then 0 else old + 1
  | 9 => if old = 0 ∨ op0 < old then op0 else old - 1
  | 10 => if old < op0 then op0 else old
  | _ => old

/-- Bytes of an element as an atomic leaves them. -/
def atomicBytes (op t : Nat) (old : List Byte) (op0 op1 : Word) : List Byte :=
  let n := if t = 2 ∨ t = 3 ∨ t = 5 then 8 else 4
  let x := if n = 8 then op1.toNat * pow2 32 + op0.toNat else op0.toNat
  bytesOfNat n (atomicNew op t (natOfBytes old) x op1.toNat)

/-- Whether a request is an intrinsic one, and the bytes of its element (12 R309). -/
def Ask.isIntrinsic (a : Ask) : Bool := match a with | .intrinsic .. => true | _ => false
def Ask.bytes (a : Ask) : Nat := match a with | .intrinsic _ t => if t = 2 ∨ t = 3 ∨ t = 5 then 8 else 4 | _ => 0

/-! ### What a group holds to its quantum's end (17 R404) -/

/-- The atomic that an effect performs. -/
def Effect.atomic? (e : Effect) : Option Request :=
  match e with
  | .windowAtomic r => some r
  | .request r => if r.ask.isIntrinsic then some r else none
  | _ => none

/-- The eight bytes from a location, each under the stores and the atomics of an effect. -/
def Effect.onto (e : Effect) (start : Loc) (bs : List Byte) : List Byte :=
  match e with
  | .store ps .. => bs.mapIdx fun i b => ps.foldl (fun a p => p.onto (start.plus i) a) b
  | _ => match e.atomic? with
    | none => bs
    | some r => match r.ask, offsetIn start 8 r.loc with
      | .intrinsic op t, some o =>
        let new := atomicBytes op.toNat t.toNat ((List.range r.ask.bytes).map fun i => bs.getD (o + i) 0) r.op0 r.op1
        bs.mapIdx fun i b => if o ≤ i ∧ i < o + new.length then new.getD (i - o) 0 else b
      | _, _ => bs

/-- The location of the eight bytes, at a multiple of eight, that hold a byte; and its place among them. -/
def Loc.block (l : Loc) : Loc × Nat :=
  match l with
  | .mem k => (.mem (k / 8 * 8), k % 8)
  | .slice t o => (.slice t (o / 8 * 8), o % 8)

/-- A byte after what a group holds, its atomics among them: its accesses to one location keep their order, and it sees its own
(13 R325, R334; 17 R404; DEDUCED, notes/assumptions/21.md). -/
def heldByte (held : List Effect) (base : Loc → Byte) (l : Loc) : Byte :=
  if held.isEmpty then base l
  else
    let b := l.block
    (held.foldl (fun bs e => e.onto b.1 bs) ((List.range 8).map fun i => base (b.1.plus i))).getD b.2 0

/-- The key of a slice byte among the writes of a phase. -/
def sliceKey (off : Nat) : Nat := pow2 80 + off

/-- What a view sees of a team's releases: those of quanta below `limit`, and the quantum `limit` itself of the group `own` (17 R404, R407);
every release when there is no limit. -/
structure Horizon where
  limit : Nat
  own   : Option Nat
  deriving DecidableEq, Repr

/-- Whether a write lies within a horizon. -/
def PhaseWrite.seen (w : PhaseWrite) (h : Option Horizon) : Bool :=
  match h with
  | none => true
  | some x => decide (w.quantum < x.limit) || (x.own == some w.gid && decide (w.quantum ≤ x.limit))

/-- Logical order of writes: quantum, then grid-wide group id, then program order (17 R404). -/
def PhaseWrite.le (a b : PhaseWrite) : Bool :=
  decide (a.quantum < b.quantum) || (a.quantum == b.quantum && (decide (a.gid < b.gid) || (a.gid == b.gid && decide (a.place ≤ b.place))))

/-- The last write in logical order among some writes of a team to a key (17 R404). -/
def lastWrite (t : Team) (k : Nat) (p : PhaseWrite → Bool) : Option PhaseWrite :=
  t.writes.foldl (fun (acc : Option PhaseWrite) w =>
    if w.key = k ∧ p w = true then
      match acc with
      | none => some w
      | some a => if a.le w then some w else acc
    else acc) none

/-- The byte that a team's writes leave at a key, within a horizon; none when none of them is there (17 R401, R404). -/
def phaseByte (t : Team) (h : Option Horizon) (k : Nat) : Option Byte := (lastWrite t k fun w => w.seen h).map PhaseWrite.val

/-- A slice byte as a horizon shows it; one that no release has written is as it stands. -/
def phaseSlice (t : Team) (h : Option Horizon) (off : Nat) : Byte :=
  match h with
  | none => sliceByte t off
  | some _ =>
    if t.writes.any fun w => w.key == sliceKey off then (phaseByte t h (sliceKey off)).getD (Config.sliceByte t.id off) else sliceByte t off

/-- Whose view of memory a read takes: the held stores, the team's phase writes and the store buffer it sees (17 R401, R404); and what the commit
units of planes have replaced since the reader began (08 R233). -/
structure View where
  held : List Effect := []
  team : Option Nat := none
  horizon : Option Horizon := none
  /-- The store buffer of a method's batch (11 R293). -/
  buffer : Cells := []
  past : Cells := []
  deriving DecidableEq, Repr

/-- The batch that a service group runs. -/
def batchOf (s : State) (g : Group) : Option Batch :=
  match g.role with
  | .ordinary => none
  | .service h sg => (s.home? h).bind fun x => x.batches.find? fun b => b.sg == sg

/-- Whether a batch has begun its commit (11 R300). -/
def Batch.commits (b : Batch) : Bool := b.found.isSome

/-- A group's own view. -/
def viewOf (s : State) (g : Group) : View :=
  let buffer := match batchOf s g with | none => [] | some b => b.buffer
  match g.logical with
  | none => { buffer := buffer }
  | some l =>
    if (s.ephGrid g).isSome then
      { held := l.held, team := some g.team, horizon := some { limit := l.quantum, own := none }, buffer := buffer }
    else { held := l.held, buffer := buffer }

/-- What stands now, with every release: how a watch is judged (12 R320, 17 R405). -/
def nowView (s : State) (g : Group) : View := { viewOf s g with held := [], horizon := none }

/-- The view of an engine command of a group of a team, which its release fixes (17 R407). -/
def teamView (s : State) (t q gid : Nat) : View :=
  match (s.team? t).bind fun x => s.grid? x.grid with
  | some d => if d.phase.isSome then { held := [], team := some t, horizon := some { limit := q, own := some gid } } else {}
  | none => {}

/-- A byte under the nibbles that a store buffer holds of it (11 R293). -/
def overNibbles (buffer : Cells) (k : Nat) (b : Byte) : Byte :=
  let lo := (sfind buffer (2 * k)).getD (b &&& 0x0F#8)
  let hi := (sfind buffer (2 * k + 1)).getD (b >>> 4)
  (hi <<< 4) ||| lo

/-- A byte of memory as a team of a running phase finds it where it has not written: as the phase started, whatever atomics of other teams
have done since (17 R401). -/
def startByte (s : State) (t : Team) (k : Nat) : Byte :=
  match (s.grid? t.grid).bind Grid.phase with
  | none => readKey s k
  | some ph => (sfind ph.before k).getD (readKey s k)

/-- A byte at a location in a view, without what the group holds. -/
def shownLoc (s : State) (v : View) (l : Loc) : Byte :=
  match l with
  | .slice t o => match s.team? t with | none => 0 | some x => phaseSlice x v.horizon o
  | .mem k =>
    let below := match v.team.bind s.team? with
      | none => (sfind v.past k).getD (readKey s k)
      | some t => (phaseByte t v.horizon k).getD (startByte s t k)
    overNibbles v.buffer k below

/-- A byte at a location in a view. -/
def readLoc (s : State) (v : View) (l : Loc) : Byte := heldByte v.held (shownLoc s v) l

/-- `n` bytes from a location in a view. -/
def readLocs (s : State) (v : View) (l : Loc) (n : Nat) : List Byte := (List.range n).map fun i => readLoc s v (l.plus i)

/-! ### Translation (08 R208, R216 to R219; 18 R423) -/

/-- What an access does with a page (08 R218). -/
inductive Access where
  | load | store | fetch | update
  deriving DecidableEq, Repr

/-- A leaf that maps an address: entry word, page base and size, and the key of the entry for the accessed and dirty bits. -/
structure Leaf where
  entry : Nat
  base  : Nat
  size  : Nat
  addr  : Option Nat
  deriving DecidableEq, Repr

/-- What a walk ends in: a leaf, or a fault record kind: 1 not present, 2 parked in tier 2, 3 malformed (08 R221). -/
inductive Walk where
  | leaf (l : Leaf)
  | absent (kind : Byte)
  deriving DecidableEq, Repr

/-- The levels of the walk: lowest address bit, index bits (08 R216). -/
def walkLevels : List (Nat × Nat) := [(48, 9), (39, 9), (30, 9), (21, 9), (16, 5)]

/-- A leaf entry that is well formed for a page of 2^sh bytes: reserved bits zero and the frame aligned (08 R217). -/
def leafOk (e sh : Nat) : Bool :=
  bitsOf e 63 60 == 0 && bitsOf e 15 8 == 0 && (sh == 16 || bitsOf e (sh - 1) 16 == 0)

/-- Whether the table of so many index bits at an address lies in tier 0 (01 R24, 08 R217). -/
def tableThere (a bits : Nat) : Bool := decide (a + 8 * pow2 bits ≤ Config.tier0Bytes)

/-- A table entry that is well formed: reserved bits zero, and the next table in tier 0 (08 R216, R217); and aligned to its own size, a point that
R217 names for frames alone (DESIGN CHOICE, notes/assumptions/105.md). -/
def tableOk (e nextBits : Nat) : Bool :=
  bitsOf e 7 2 == 0 && bitsOf e 63 58 == 0 && (nextBits == 5 || bitsOf e 11 8 == 0) && tableThere (bitsOf e 57 8 <<< 8) nextBits

/-- The walk from a table at tier-0 address `t` (08 R216, R217).  A valid entry of the last level that is no leaf is malformed (DESIGN CHOICE,
notes/assumptions/105.md). -/
def walkFrom (s : State) (va : Nat) : List (Nat × Nat) → Nat → Walk
  | [], _ => .absent 3
  | (sh, bits) :: rest, t =>
    let a := t + 8 * bitsOf va (sh + bits - 1) sh
    let e := natOfBytes (readKeys s a 8)
    if e % 2 = 0 then .absent 1
    else if bitsOf e 1 1 = 1 then
      if 30 < sh || !(leafOk e sh) then .absent 3
      else if bitsOf e 59 58 = 2 then .absent 2
      else .leaf { entry := e, base := (va >>> sh) <<< sh, size := pow2 sh, addr := some a }
    else match rest with
      | [] => .absent 3
      | (_, nb) :: _ => if tableOk e nb then walkFrom s va rest (bitsOf e 57 8 <<< 8) else .absent 3

/-- The walk of a virtual address in a partition. -/
def walk (s : State) (p : Part) (va : Nat) : Walk :=
  if tableThere p.root.toNat 9 then walkFrom s va walkLevels p.root.toNat else .absent 3

/-- Leaf entries equal but for their accessed and dirty bits. -/
def sameLeaf (a b : Nat) : Bool := a - bitsOf a 7 6 * 64 == b - bitsOf b 7 6 * 64

/-- The walk with the translation caches: a cached leaf that differs from the table's may still be used until the invalidation ends
(08 R219); which one is a free value. -/
def walkCached (s : State) (p : Part) (va n : Nat) : Walk :=
  let fresh := walk s p va
  match p.tlb.find? fun c => decide (c.base ≤ va) && decide (va < c.base + c.size) with
  | none => fresh
  | some c =>
    let old : Walk := .leaf { entry := c.leaf.toNat, base := c.base, size := c.size, addr := none }
    match fresh with
    | .leaf l => if sameLeaf l.entry c.leaf.toNat && l.size == c.size then fresh
        else if Config.staleLeaf (s.free + n) then old else fresh
    | .absent _ => if Config.staleLeaf (s.free + n) then old else fresh

/-- Where an access goes: a location with its tier and the leaf used, a protection fault, or a page that is not present. -/
inductive Trans where
  | loc (l : Loc) (tier : Nat) (leaf : Option Leaf)
  | access
  | absent (kind : Byte)
  deriving DecidableEq, Repr

/-- The hash window of a partition that holds a virtual address (18 R422). -/
def hashWindow? (p : Part) (va : Nat) : Option HashWindow :=
  p.hash.find? fun h => decide (h.base ≤ va) && decide (va < h.base + h.pages * pow2 21)

/-- The owner of page i of a window (18 R423). -/
def hashOwner (h : HashWindow) (i : Nat) : Nat := (i % h.members + i / h.members) % h.members

/-- An address inside a hash window: tier 0 on its owner, tier 3 elsewhere; read and write right, no execute (18 R423). -/
def hashTrans (s : State) (h : HashWindow) (a : Access) (va : Nat) : Trans :=
  if a = .fetch then .access
  else
    let i := (va - h.base) / pow2 21
    if hashOwner h i = h.self then .loc (.mem (h.backing + pow2 21 * (i / h.members) + va % pow2 21)) 0 none
    else
      let dev := natOfBytes (readKeys s (h.table + 2 * hashOwner h i) 2) % pow2 12
      .loc (.mem (windowKey dev va)) 3 none

/-- The rights an access needs in a leaf (08 R218). -/
def leafAllows (e : Nat) (a : Access) (sys : Bool) : Bool :=
  (sys || bitsOf e 5 5 == 0) &&
  (match a with
   | .load => bitsOf e 2 2 == 1
   | .store => bitsOf e 3 3 == 1
   | .fetch => bitsOf e 4 4 == 1
   | .update => bitsOf e 2 2 == 1 && bitsOf e 3 3 == 1)

/-- The location key a leaf gives an address, by tier (08 R217, 19 R430). -/
def leafKey (l : Leaf) (va : Nat) : Nat :=
  let a := bitsOf l.entry 57 16 <<< 16
  let off := va % l.size
  match bitsOf l.entry 59 58 with
  | 1 => poolKey (a + off)
  | 3 => remoteKey (bitsOf a 57 46) ((a + off) % pow2 46)
  | _ => a + off

/-- Translation and checks of one access: the space of the address, then the hash window or the leaf (08 R208, R218).  The window
means the slice of the team, when there is one. -/
def translate (s : State) (r : Rights) (team : Option Nat) (a : Access) (va : Dword) (n : Nat) : Trans :=
  if va.extractLsb' 57 7 = 0 then
    match s.part? r.part with
    | none => .access
    | some p =>
      match hashWindow? p va.toNat with
      | some h => hashTrans s h a va.toNat
      | none =>
        match walkCached s p va.toNat n with
        | .absent k => .absent k
        | .leaf l => if leafAllows l.entry a r.sys then .loc (.mem (leafKey l va.toNat)) (bitsOf l.entry 59 58) (some l) else .access
  else if va.extractLsb' 48 16 = 0xFFFE#16 ∧ a ≠ .fetch then
    match team.bind s.team? with
    | none => .access
    | some t => if (va.extractLsb' 0 48).toNat < t.sliceLen then .loc (.slice t.id (va.extractLsb' 0 48).toNat) 0 none else .access
  else .access

/-- The use of a leaf: the walker sets accessed, and dirty before a write, at the entry's home (08 R217), and the translation caches
hold it (08 R219). -/
def useLeaf (s : State) (part : Nat) (l : Leaf) (write : Bool) : State :=
  let s1 := match l.addr with
    | none => s
    | some a => { s with mem := sset 0 s.mem a (readKey s a ||| (if write then 0xC0#8 else 0x40#8)) }
  let c : CachedLeaf := { base := l.base, size := l.size, leaf := BitVec.ofNat 64 l.entry }
  s1.modPart part fun p =>
    if p.tlb.any fun x => decide (x.base = c.base) && decide (x.size = c.size) && sameLeaf x.leaf.toNat l.entry then p
    else { p with tlb := c :: p.tlb }

/-- The use of every leaf of a list of accesses. -/
def useLeaves (s : State) (part : Nat) (ts : List Trans) (write : Bool) : State :=
  let s' := ts.foldl (fun s t => match t with | .loc _ _ (some l) => useLeaf s part l write | _ => s) s
  { s' with free := s'.free + ts.length }

/-- Whether a port leads to a device: to its partner, or on to a device that is no neighbour (19 R429). -/
def Port.leads (q : Port) (dev : Nat) : Bool := q.peer.toNat == dev || q.num == Config.routePort dev

/-- Whether the device function is ready (20 R443). -/
def ready (s : State) : Bool := s.dev.powered && s.dev.stage == 4

/-- Whether a partition's memory quarters hold a range of tier 0, every 16-byte word of it (19 R437). -/
def ownsRange (p : Part) (k n : Nat) : Bool :=
  decide (k + n ≤ Config.tier0Bytes) &&
  (List.range ((k % 16 + n + 15) / 16)).all fun i => p.quarters.contains (Config.quarter (k / 16 + i))

/-- Whether a location can be reached: an address that the stacks of tier 0 hold, a pool behind a port that completes accesses, or a device
that an up port of the partition leads to (01 R24; 08 R223; 19 R426, R435). -/
def reachable (s : State) (part : Nat) (l : Loc) : Bool :=
  match l with
  | .slice .. => true
  | .mem k =>
    match keyTier k with
    | 0 => decide (k < Config.tier0Bytes)
    | 1 => !(s.dev.poolDown.contains (bitsOf k 57 57))
    | _ => s.dev.ports.any fun q => q.up && q.owner == some part && q.leads (keyDevice k)

/-- Whether another device refuses a tier-3 access; the others are not remote (19 R431). -/
def refusedRemote (l : Loc) : Bool :=
  match l with
  | .slice .. => false
  | .mem k => keyTier k == 3 && !(Config.remoteAdmits (keyDevice k) k)

/-- Whether a location lies in a 16-byte word with an uncorrectable error (08 R223). -/
def hasError (s : State) (l : Loc) : Bool :=
  match l with
  | .slice t o => (s.team? t).any fun x => x.sliceErr.contains (o / 16)
  | .mem k => s.memErr.contains (k / 16)

/-- Whether the 16-byte word of a location is one that a view's own team has written whole: held, or released in the running phase.  The word
at phase start, with its error, is not what the view shows (08 R224; 17 R401). -/
def View.covers (s : State) (v : View) (l : Loc) : Bool :=
  (v.held.any fun e => match e with | .store ps .. => coversWord ps l | _ => false) ||
  match l.word, v.team.bind s.team? with
  | .mem k, some t => (List.range 16).all fun i => t.writes.any fun w => w.key == k + i && !w.atomic && w.seen v.horizon
  | _, _ => false

/-- Whether a view meets an uncorrectable error at a location. -/
def View.hasError (s : State) (v : View) (l : Loc) : Bool := Machine.hasError s l && !(v.covers s l)

/-! ### Relations between values (06 R176) -/

/-- The relation of a 4-bit code between two values of `w` bits: EQ NE LT LE GT GE signed, LTU LEU GTU GEU unsigned (06 R176). -/
def relHolds (r : Nat) (w x y : Nat) : Bool :=
  let sx := toSigned w x
  let sy := toSigned w y
  match r with
  | 0 => x == y
  | 1 => x != y
  | 2 => decide (sx < sy)
  | 3 => decide (sx ≤ sy)
  | 4 => decide (sy < sx)
  | 5 => decide (sy ≤ sx)
  | 6 => decide (x < y)
  | 7 => decide (x ≤ y)
  | 8 => decide (y < x)
  | 9 => decide (y ≤ x)
  | _ => false

/-! ### Writes and watches -/

/-- Whether two byte ranges overlap. -/
def overlaps (a : Loc) (n : Nat) (b : Loc) (m : Nat) : Bool :=
  match a, b with
  | .mem x, .mem y => decide (x < y + m) && decide (y < x + n)
  | .slice t x, .slice u y => decide (t = u) && decide (x < y + m) && decide (y < x + n)
  | _, _ => false

/-- A watch that the value now at its word satisfies is met; a tier-1 word is not watched (12 R320, R321). -/
def judgeWatch (s : State) (v : View) (l : Loc) (n : Nat) (w : Wait) : Wait :=
  match w with
  | .watch at_ va bytes rel cmp tier1 met pc =>
    if !met && !tier1 && overlaps l n at_ bytes &&
       relHolds rel.toNat (8 * bytes) (natOfBytes (readLocs s v at_ bytes)) (cmp.toNat % pow2 (8 * bytes)) then
      .watch at_ va bytes rel cmp tier1 true pc
    else w
  | _ => w

/-- The fragments of some kind whose park a release of quantum `q` has ended go on after that quantum (17 R405). -/
def Group.wake (g : Group) (q : Nat) (p : Frag → Bool) : Group :=
  { g with frags := g.frags.map fun f => if p f then { f with after := Nat.max f.after q } else f }

/-- The quantum of a write as a group counts it: 0 when it is no release of its own team in the running phase (17 R405). -/
def releaseTime (s : State) (g : Group) (l : Loc) (n q : Nat) : Nat :=
  match l with
  | .slice .. => q
  | .mem k =>
    if (s.team? g.team).any fun t => t.writes.any fun w => w.quantum == q && decide (k ≤ w.key) && decide (w.key < k + n) then q else 0

/-- Whether a fragment waits in WAITV for a value that has not come. -/
def Frag.watching (f : Frag) : Bool := match f.wait with | some (.watch _ _ _ _ _ _ false _) => true | _ => false

/-- Every watch is judged after a write of `n` bytes at a location, which a release of quantum `q` makes (12 R320, 17 R405). -/
def notify (s : State) (q : Nat) (l : Loc) (n : Nat) : State :=
  { s with groups := s.groups.map fun g =>
      if g.frags.any Frag.watching then
        let v := nowView s g
        { g with frags := g.frags.map fun f =>
            let w := f.wait.map (judgeWatch s v l n)
            if w = f.wait then f else { f with wait := w, after := Nat.max f.after (releaseTime s g l n q) } }
      else g }

/-- The queue whose command an engine runs, when it runs one: a feeder of a core, or a copy queue of a partition; or the home whose pool method
reads and writes memory. -/
inductive EngQueue where
  | feeder (core n : Nat)
  | copy (part n : Nat)
  | home (n : Nat)
  | none
  deriving DecidableEq, Repr

/-- Bytes of memory as they stand, kept where none are kept yet. -/
def keepBytes (s : State) (k n : Nat) (m : Cells) : Cells :=
  (List.range n).foldl (fun m i => if (sfind m (k + i)).isSome then m else sput m (k + i) (readKey s (k + i))) m

/-- A part of a commit unit of planes is about to be written: the feeds and copies of plane formats that run keep what stands there, and so see
the unit as it was before, whole; the engine that writes it sees its own (08 R233; 18 R415; DEDUCED, notes/assumptions/109.md). -/
def keepPast (s : State) (own : EngQueue) (l : Loc) (n : Nat) : State :=
  match l with
  | .slice .. => s
  | .mem k =>
    let keep := fun (mine : Bool) (m : Cells) => if mine then m.filter fun x => decide (x.1 < k) || decide (k + n ≤ x.1) else keepBytes s k n m
    let feeder := fun (o : EngQueue) (q : Feeder) => match q.past with
      | none => q
      | some m => { q with past := some (keep (o == .feeder q.core q.num) m) }
    let copy := fun (o : EngQueue) (q : CopyQueue) => match q.past with
      | none => q
      | some m => { q with past := some (keep (o == .copy q.part q.num) m) }
    let s1 : State := { s with feeders := s.feeders.map (feeder own), copies := s.copies.map (copy own) }
    if s.savedContexts.any fun c => c.feeders.any (fun q => q.past.isSome) || c.copies.any fun q => q.past.isSome then
      s1.mapSaved fun x => { x.ctx with feeders := x.ctx.feeders.map (feeder .none), copies := x.ctx.copies.map (copy .none) }
    else s1

/-- Bytes placed at a location, nothing else. -/
def placeBytes (s : State) (l : Loc) (bs : List Byte) : State :=
  match l with
  | .mem k =>
    { s with mem := (bs.foldl (fun (mi : Cells × Nat) b => (sset 0 mi.1 mi.2 b, mi.2 + 1)) (s.mem, k)).1 }
  | .slice t o =>
    s.modTeam t fun x => { x with slice := (bs.foldl (fun (mi : Cells × Nat) b => (sput mi.1 mi.2 b, mi.2 + 1)) (x.slice, o)).1 }

/-- A write of `n` bytes removes the error of a 16-byte word that it covers whole (08 R224). -/
def clearErrors (s : State) (l : Loc) (n : Nat) : State :=
  let left := fun (k : Nat) (ws : List Nat) => ws.filter fun w => !(decide (k ≤ 16 * w) && decide (16 * w + 16 ≤ k + n))
  match l with
  | .mem k => { s with memErr := left k s.memErr }
  | .slice t o => s.modTeam t fun x => { x with sliceErr := left o x.sliceErr }

/-- One write that a release of quantum `q` brings about: the bytes, the errors that it removes, and the watches judged. -/
def writeAt (s : State) (q : Nat) (l : Loc) (bs : List Byte) : State :=
  notify (clearErrors (placeBytes s l bs) l bs.length) q l bs.length

/-- One write, of no release. -/
def writeLoc (s : State) (l : Loc) (bs : List Byte) : State := writeAt s 0 l bs

/-- The next place among a team's releases (17 R404). -/
def placeOf (s : State) (team : Nat) : Nat := ((s.team? team).map Team.released).getD 0

/-- The key under which the arming of a barrier word stands among the writes of a phase. -/
def armKey (word : Nat) : Nat := pow2 81 + word

/-- A write by a team of a running phase: into its phase writes, in release order (17 R401, R404). -/
def writePhase (s : State) (team quantum gid : Nat) (l : Loc) (bs : List Byte) : State :=
  let k := match l with | .slice _ o => sliceKey o | .mem k => k
  let ws := (List.range bs.length).map fun i =>
    ({ quantum := quantum, gid := gid, key := k + i, val := bs.getD i 0, place := placeOf s team } : PhaseWrite)
  let s1 := s.modTeam team fun t => { t with writes := t.writes ++ ws, released := t.released + 1 }
  let s2 := match l with | .slice .. => clearErrors (placeBytes s1 l bs) l bs.length | .mem _ => s1
  notify s2 quantum l bs.length

/-- A number written little-endian as `n` bytes at a location key. -/
def writeNat (s : State) (k n x : Nat) : State := writeLoc s (.mem k) (bytesOfNat n x)

/-! ### The error log and the fault queue (20 R447, R448; 08 R221) -/

/-- Entries of a ring that are produced and not consumed. -/
def ringUsed (prod cons : Word) : Nat := (prod - cons).toNat

/-- The entries of a ring of 2^k, k from 4 to 16; a ring that is not set up has none (20 R444). -/
def ringSize (k : Nat) : Nat := if 4 ≤ k ∧ k ≤ 16 then pow2 k else 0

/-- Appends an error log entry, or counts it as lost when the log is full (20 R447, R448). -/
def errLog (s : State) (part : Nat) (kind code : Byte) (addr addr2 pc : Dword) (a b : Word) : State :=
  match s.part? part with
  | none => s
  | some p =>
    if ringUsed p.errProd p.errCons < ringSize p.errK then
      let at_ := p.errBase.toNat + 64 * (p.errProd.toNat % pow2 p.errK)
      let bytes := bytesOfNat 2 1 ++ [kind, code] ++ bytesOfNat 4 p.nextErr.toNat ++ bytesOfNat 8 addr.toNat ++
        bytesOfNat 8 addr2.toNat ++ bytesOfNat 8 pc.toNat ++ bytesOfNat 4 a.toNat ++ bytesOfNat 4 b.toNat ++ bytesOfNat 24 0
      let s1 := writeLoc s (.mem at_) bytes
      let signal := p.errProd == p.errCons
      s1.modPart part fun p => { p with
        errProd := p.errProd + 1, nextErr := nextNumber p.nextErr,
        msiErr := p.msiErr + (if signal then 1 else 0) }
    else s.modPart part fun p => { p with errLost := if p.errLost = 0xFFFFFFFF#32 then p.errLost else p.errLost + 1 }

/-- The requester word of a fault record (08 R221): kind 0 group, 1 feeder, 2 copy engine, 3 home, 4 distributor. -/
def requester (kind id : Nat) : Word := BitVec.ofNat 32 (kind * pow2 24 + id % pow2 24)

/-- Appends one fault record when the fault queue has room, and gives its sequence number (08 R221, 20 R447). -/
def faultRecord (s : State) (part : Nat) (kind access : Byte) (req : Word) (va : Dword) : Option (Word × State) :=
  match s.part? part with
  | none => none
  | some p =>
    if ringUsed p.faultProd p.faultCons < ringSize p.faultK then
      let at_ := p.faultBase.toNat + 32 * (p.faultProd.toNat % pow2 p.faultK)
      let page := (va.toNat / pow2 16) * pow2 16
      let bytes := bytesOfNat 2 1 ++ [kind, access] ++ bytesOfNat 4 req.toNat ++ bytesOfNat 8 page ++
        bytesOfNat 4 p.nextFault.toNat ++ bytesOfNat 12 0
      let signal := p.faultProd == p.faultCons
      let s1 := (writeLoc s (.mem at_) bytes).modPart part fun p =>
        { p with
          faultProd := p.faultProd + 1, nextFault := nextNumber p.nextFault,
          faults := p.faults ++ [{ seq := p.nextFault, addr := va }],
          msiFault := p.msiFault + (if signal then 1 else 0) }
      some (p.nextFault, s1)
    else none

/-- Appends fault records for a list of (address, kind, access) while there is room: the numbers given, the rest, the state. -/
def faultRecords (s : State) (part : Nat) (req : Word) :
    List (Dword × Byte × Byte) → List Word × List (Dword × Byte × Byte) × State
  | [] => ([], [], s)
  | (va, k, a) :: rest =>
    match faultRecord s part k a req va with
    | none => ([], (va, k, a) :: rest, s)
    | some (n, s1) =>
      let r := faultRecords s1 part req rest
      (n :: r.1, r.2.1, r.2.2)

/-- Bit [17] marks: what an unreachable location is reported as in an error log entry's word B (20 R448). -/
def unreachWord (s : State) (part : Nat) (l : Loc) : Word :=
  match l with
  | .slice .. => 0
  | .mem k =>
    if keyTier k = 0 then 0
    else if keyTier k = 1 then BitVec.ofNat 32 (pow2 16 + bitsOf k 57 57)
    else match s.dev.ports.find? fun q => q.owner == some part && q.leads (keyDevice k) with
      | some q => BitVec.ofNat 32 q.num
      | none => 0

/-- Logs a failed access: kind 1 for an uncorrectable error, kind 2 for an unreachable tier (08 R223, 20 R448). -/
def logAccess (s : State) (part : Nat) (l : Loc) (va pc : Dword) (req : Word) : State :=
  if reachable s part l then errLog s part 1 9 va 0 pc req 0 else errLog s part 2 9 va 0 pc req (unreachWord s part l)

/-- A location that cannot be accessed at all: an error or out of reach (08 R223). -/
def broken (s : State) (part : Nat) (l : Loc) : Bool := hasError s l || !(reachable s part l)

/-- Whether a store buffer holds every nibble of `n` bytes: a method's load takes them from there, and meets no memory (11 R293). -/
def View.buffered (v : View) (l : Loc) (n : Nat) : Bool :=
  match l with
  | .mem k => !v.buffer.isEmpty && (List.range (2 * n)).all fun i => (sfind v.buffer (2 * k + i)).isSome
  | .slice .. => false

/-- The same for an access of `n` bytes, as a group's view has it. -/
def View.broken (s : State) (v : View) (part : Nat) (l : Loc) (n : Nat) : Bool :=
  !(v.buffered l n) && (v.hasError s l || !(reachable s part l))

/-! ### Flits of tier-3 requests (19 R425, R426) -/

/-- The port a tier-3 request to a device leaves by: the lowest up port of the partition that leads there (DESIGN CHOICE, notes/assumptions/13.md). -/
def portTo (s : State) (part dev : Nat) : Option Port :=
  s.dev.ports.find? fun q => q.up && q.owner == some part && q.leads dev

/-- A port with a field changed. -/
def modPort (s : State) (n : Nat) (f : Port → Port) : State :=
  { s with dev := { s.dev with ports := modBy Port.num s.dev.ports n f } }

/-- The number of a virtual lane among those of a port: flits are numbered on each virtual lane by itself, since none waits for another
(19 R425, R426; DEDUCED, notes/assumptions/49.md). -/
def laneSeq (l : List (BitVec 12)) (lane : BitVec 2) : BitVec 12 := l.getD lane.toNat 0

/-- The numbers with that of a virtual lane one higher. -/
def bumpLane (l : List (BitVec 12)) (lane : BitVec 2) : List (BitVec 12) := l.set lane.toNat (laneSeq l lane + 1)

/-- One flit more leaves a port on a virtual lane: at once, or when its partner resumes the lane (19 R426, R427). -/
def queueFlit (s : State) (q : Port) (lane : BitVec 2) : State :=
  let n := if q.paused.contains lane then 0 else 1
  (modPort s q.num fun q => { q with
    nextSeq := bumpLane q.nextSeq lane, unacked := q.unacked ++ [(lane, laneSeq q.nextSeq lane, n)] }).count 7 q.num 0 n

/-- An answer to another device leaves a port on the response lane (19 R425, R431). -/
def sendAnswer (s : State) (q : Port) (a : Answer) : State :=
  modPort (queueFlit s q 1) q.num fun p => { p with answers := p.answers ++ [(laneSeq q.nextSeq 1, a)] }

/-- Sends one request flit for a tier-3 location, and gives its port and sequence number (19 R426). -/
def sendFlit (s : State) (part : Nat) (l : Loc) : State × List (Nat × BitVec 12) :=
  match l with
  | .slice .. => (s, [])
  | .mem k =>
    if keyTier k = 3 then
      match portTo s part (keyDevice k) with
      | none => (s, [])
      | some q =>
        (queueFlit s q 0, [(q.num, laneSeq q.nextSeq 0)])
    else (s, [])

end Sys2Proof.Machine
end

