-- ==== Sys2Proof/Machine/Ops.lean ====
section
/-!
DEFINITION. The shared operations of the machine: landing a result, exit, context fault, method fault, taking a trap and
returning from one, restart of a region, replayable stalls, effects that cross to other agents, and the runner of a unit.
-/

namespace Sys2Proof.Machine

/-! ### Trap causes (16 R379) -/

def causeIllegal : Byte := 0x01
def causePriv : Byte := 0x02
def causeRegx : Byte := 0x03
def causeLahz : Byte := 0x04
def causeUnif : Byte := 0x05
def causeMisalign : Byte := 0x06
def causePage : Byte := 0x07
def causeAccess : Byte := 0x08
def causeMemerr : Byte := 0x09
def causeObjfault : Byte := 0x0A
def causeTilehdr : Byte := 0x0B
def causeNest : Byte := 0x0C
def causeQueue : Byte := 0x0D
def causeSwtrap : Byte := 0x0E
def causeBrk : Byte := 0x0F
def causeArith : Byte := 0x10
def causeGang : Byte := 0x11
def causeFmtslot : Byte := 0x12
def causeEphviol : Byte := 0x13
def causeRelword : Byte := 0x14

/-! ### Fragments -/

/-- Whether a fragment takes no turn because a handler holds it (16 R380). -/
def Group.holds (g : Group) (f : Frag) : Bool :=
  match g.handler with | none => false | some h => h.held.contains f.id

/-- The fragments a handler does not hold: all of them when no handler runs. -/
def Group.running (g : Group) : List Frag := g.frags.filter fun f => !(g.holds f)

/-- The fragment among some that holds the lowest lane (05 R145, 06 R159, 14 R349). -/
def lowestFrag (fs : List Frag) : Option Frag :=
  fs.foldl (fun acc f =>
    match acc with
    | none => some f
    | some x => if lowestLane f.mask < lowestLane x.mask then some f else some x) none

/-- The fragment of a group that takes an asynchronous trap: the one that holds the lowest lane of a mask, the handler's before the
one it holds (14 R349, 16 R395). -/
def Group.fragOfLane (g : Group) (mask : Word) : Option Frag :=
  let l := lowestLane mask
  let has := fun (f : Frag) => f.mask.getLsbD l
  match g.running.find? has with
  | some f => some f
  | none =>
    match g.frags.find? has with
    | some f => some f
    | none => lowestFrag g.running

/-- The joins of a split and of those around it (06 R154, R157). -/
def joinsOf (splits : List Split) : Nat → Nat → List Dword
  | 0, _ => []
  | fuel + 1, n =>
    match splits.find? fun x => x.id == n with
    | none => []
    | some x => x.join :: joinsOf splits fuel x.parent

/-- Whether a fragment waits at a join: its next unit is the join of its split or of one around it (06 R157).  The unit of a fragment that
waits for something else is not complete, so its next unit is still to come. -/
def Group.atJoin (g : Group) (f : Frag) : Bool :=
  f.wait.isNone && (joinsOf g.splits (g.splits.length + 1) f.split).contains f.pc

/-- Whether a fragment is parked for R147 and R148: a wait, or a join (06 R158, 08 R222); an HBIND that waits is not. -/
def Group.parkedFrag (g : Group) (f : Frag) : Bool :=
  (match f.wait with | none => false | some (.rebind _) => false | some _ => true) || g.atJoin f

/-- Whether a group is parked: every fragment is parked (05 R147); a handler never is (16 R395). -/
def Group.parked (g : Group) : Bool :=
  !g.exited && g.handler.isNone && g.trapWait.isNone && !g.frags.isEmpty && g.frags.all fun f => g.parkedFrag f

/-- Whether a fragment is parked by a unit that has not taken effect: a DEQ on an empty queue, or an arrival at a word that is not armed.
Its region goes on until the unit takes effect (05 R139, 06 R167). -/
def Frag.unperformed (f : Frag) : Bool :=
  match f.wait with | some (.deq ..) => true | some (.arm ..) => true | _ => false

/-- Whether a fragment stalls on a replayable fault (08 R221). -/
def Frag.stalled (f : Frag) : Bool :=
  match f.wait with | some (.stall ..) => true | some (.queueFull ..) => true | _ => false

/-- A region that begins at an address: counter advanced, empty mask, kind 0b00 (06 R165). -/
def newRegion (g : Group) (f : Frag) (pc : Dword) : Group :=
  let g1 : Group := { g with regions := g.regions + 1 }
  let units := match g.logical with | none => 0 | some l => l.retired
  let r : Region := { entry := pc, sp := false, mask := 0, base := g.window, count := g1.regions, join := f.join, units := units }
  g1.setFrag { f with region := r }

/-- A fragment whose unit was held to the quantum's end, and parks at its release without effect: the region that it ended goes on
(06 R167; 17 R404). -/
def Group.reopen (g : Group) (fid : Nat) : Group :=
  match g.frag? fid with
  | none => g
  | some f => match f.prior with
    | none => g
    | some r => { g with regions := g.regions - 1 }.setFrag { f with region := r, prior := none }

/-- A fragment as it starts at an address (06 R153, R165). -/
def freshFrag (id : Nat) (mask : Word) (pc : Dword) (tick : Nat) : Frag :=
  { id := id, mask := mask, pc := pc, last := pc, join := none, region := { entry := pc }, split := 0, outs := [], wait := none,
    stopped := false, pending := [], deferred := none, held := false, counted := false, ready := tick, promoted := none }

/-! ### Landing of results (03 R81, R82) -/

/-- The words a result writes: the replies' words by lane where it awaited replies, else its own (11 R297, 12 R310). -/
def Out.words (o : Out) : List RegWrite :=
  o.writes ++ o.replies.flatMap fun r =>
    (match o.regs with | [] => [] | d :: _ => [{ reg := d, lane := r.lane, val := r.w0 }]) ++
    (match o.regs with | _ :: e :: _ => [{ reg := e, lane := r.lane, val := r.w1 }] | _ => [])

/-- The trap that the replies of a result raise: MEMERR for an ATOM or RED reply that is an error, OBJFAULT for a status of 0x80 or
above (11 R297, 12 R313). -/
def Out.replyTrap (o : Out) : Option TrapInfo :=
  let bad := o.replies.filter fun r => match o.kind with | .objcall => decide (0x80 ≤ r.w1.toNat) | _ => r.err
  if bad = [] then none
  else
    let mask := maskOf (bad.map Reply.lane)
    let addr := ((o.addrs.find? fun x => x.1 == lowestLane mask).map Prod.snd).getD 0
    let cause := match o.kind with | .objcall => causeObjfault | _ => causeMemerr
    some { cause := cause, mask := mask, addr := addr, pc := o.pc, resume := 0, noEffect := false }

/-- A result as its unit issues it: its registers, lookahead and PC. -/
def newOut (id : Nat) (k : OutKind) (regs : List RegRef) (la : Nat) (pc : Dword) : Out :=
  { id := id, kind := k, regs := regs, window := la, interlock := false, landed := false, str := 0, writes := [], awaits := [],
    replies := [], addrs := [], trap := none, flits := [], pc := pc, quantum := 0 }

/-- Whether a result has come: every reply has arrived, and every flit has been acknowledged. -/
def Out.hasCome (o : Out) : Bool := !o.landed && o.awaits.isEmpty && o.flits.isEmpty

/-- Whether a result can land: it has come, and no commit is still to be made for it (18 R415). -/
def Out.canLand (o : Out) : Bool := o.hasCome && o.commit.isEmpty

/-- A result of a group lands: its words are written together unless its own access failed, every copy of it is landed (a split copies
open windows), and the trap its landing raises is given back (03 R82, 08 R223, 11 R297, 12 R310, R313). -/
def landOut (g : Group) (o : Out) : Group × Option TrapInfo :=
  let trap := match o.trap with | some t => some t | none => o.replyTrap
  let write := match trap, o.kind with
    | none, _ => true
    | some _, .objcall => true
    | some _, _ => false
  let g1 := if write then g.applyWrites o.words else g
  let land := fun (x : Out) => if x.id = o.id then { x with landed := true, awaits := [] } else x
  let keep := fun (x : Out) => !(x.landed && (x.window == 0 || x.interlock))
  ({ g1 with frags := g1.frags.map fun f => { f with outs := (f.outs.map land).filter keep } }, trap)

/-- A trap as it will be reported on a fragment: its resume PC is the first unit that has not issued (16 R379). -/
def TrapInfo.resumeAt (t : TrapInfo) (f : Frag) : TrapInfo := if t.noEffect then t else { t with resume := f.pc }

/-- A trap that becomes pending on a fragment: the record says so when a handler holds the fragment (16 R381, R382). -/
def Group.pend (g : Group) (f : Frag) (t : TrapInfo) : Group :=
  g.setFrag { f with pending := f.pending ++ [{ t.resumeAt f with late := g.holds f }] }

/-- Puts a trap pending on the fragment that holds the lowest lane of its mask (16 R381). -/
def pendTrap (g : Group) (t : TrapInfo) : Group :=
  match g.fragOfLane t.mask with
  | none => g
  | some f => g.pend f t

/-- Lands every result of a group that can land; traps of their landings become pending (16 R380). -/
def landReady (g : Group) : Group :=
  let outs := (g.frags.flatMap Frag.outs).filter Out.canLand
  outs.foldl (fun g o =>
    if (g.frags.any fun f => f.outs.any fun x => x.id == o.id && !x.landed) then
      match landOut g o with
      | (g1, none) => g1
      | (g1, some t) => pendTrap g1 t
    else g) g

/-- Whether every outstanding result of a group has landed. -/
def Group.allLanded (g : Group) : Bool := g.frags.all fun f => f.outs.all Out.landed

/-! ### Exit and context fault -/

/-- The group without its fragments; results on their way to its registers are kept until they return, and are discarded then
(06 R169, R170). -/
def Group.stopAll (g : Group) : Group :=
  { g with
    frags := [], splits := [], handler := none, trapWait := none, turn := none
    strays := g.strays ++ ((g.frags.flatMap Frag.outs).filter fun o => !o.landed) }

/-- Retires a group as EXIT does: in Ephemeris mode its held effects are released first, at its last quantum's end (06 R169, 17 R403);
it leaves the queues it is parked in. -/
def exitGroup (s : State) (gid : Nat) : State :=
  let s1 := s.modGroup gid fun g =>
    let g1 := g.stopAll
    match g.logical with
    | some l => { g1 with logical := some { l with ended := true } }
    | none => { g1 with exited := true }
  { s1 with parts := s1.parts.map fun p =>
      { p with work := p.work.map fun w => { w with parked := w.parked.filter fun x => !(x.1 == gid) } } }

/-- Whether a group belongs to a grid. -/
def State.inGrid (s : State) (grid : Nat) (g : Group) : Bool :=
  g.role == .ordinary && ((s.team? g.team).any fun t => t.grid == grid)

/-- Removes an evicted team from the relaunch queue and the save pool of its partition. -/
def dropTeam (p : Part) (t : Team) : Part :=
  if t.part = p.id then
    let slots := match t.place with
      | .evicted _ m _ => p.slotsUsed.filter fun n => !(n == m)
      | _ => p.slotsUsed
    { p with relaunch := p.relaunch.filter (fun x => !(x == t.id)), slotsUsed := slots }
  else p

/-- Whether the engine has begun a command: the command itself, or another member of its joint form once its latch is open (14 R352). -/
def MatCmd.begunWith (begun : List MatCmd) (c : MatCmd) : Bool :=
  c.started || (!c.latched && c.joint.isSome && begun.any fun x => match x.joint, c.joint with
    | some (j, ms, _), some (k, ns, _) => j == k && ms == ns
    | _, _ => false)

/-- Ends one grid with a completion status: its groups stop as by EXIT, matrix commands not started are discarded, no further team
is placed, and evicted teams give up their slots (16 R391, R392). -/
def endOneGrid (s : State) (grid : Nat) (status : Byte) : State :=
  let gids := (s.groups.filter fun g => s.inGrid grid g && !g.exited).map Group.id
  let s1 := gids.foldl exitGroup s
  let begun := (s1.mats.flatMap MatQueue.cmds).filter fun c => c.started && gids.contains c.group
  let s2 : State := { s1 with
    mats := s1.mats.map fun q => { q with cmds := q.cmds.filter fun c => !(gids.contains c.group) || c.begunWith begun }
    latches := s1.latches.filter fun l => !(l.members.any fun n => gids.contains n) }
  let gone := s2.teams.filter fun t => t.grid == grid && (match t.place with | .evicted .. => true | _ => false)
  let s3 : State := { s2 with
    teams := s2.teams.map fun t => if gone.any (fun x => x.id == t.id) then { t with place := .gone } else t
    groups := s2.groups.map fun g =>
      if gone.any (fun x => x.id == g.team) && g.role == .ordinary then { g.stopAll with exited := true } else g
    parts := s2.parts.map fun p => gone.foldl dropTeam p }
  s3.modGrid grid fun d => { d with status := status, next := d.teams }

/-- A saved context whose grid ends: what happens to it is what happens in the machine, and its own lists lose what is gone (16 R391). -/
def endInContext (s : State) (c : Context) (grid : Nat) (status : Byte) : Context :=
  let t := endOneGrid { s with grids := c.grids, teams := c.teams, groups := c.groups, mats := c.mats, latches := c.latches } grid status
  let parked := fun (x : Nat × Nat) => t.groups.any fun g => g.id == x.1 && g.frags.any fun f => f.id == x.2
  { c with
    grids := t.grids, teams := t.teams, groups := t.groups, mats := t.mats, latches := t.latches
    relaunch := c.relaunch.filter fun n => t.teams.any fun x => x.id == n && x.place != .gone
    parked := c.parked.map fun l => l.filter parked }

/-- The save slots of evicted teams of a grid in a saved context are free again (16 R391, R393). -/
def freeSaved (s : State) (grid : Nat) : State :=
  let gone := (s.savedContexts.flatMap Context.teams).filter fun t => t.grid == grid
  { s with parts := s.parts.map fun p => gone.foldl dropTeam p }

/-- Ends one grid wherever it is: in the machine, or in a saved context. -/
def endAnywhere (s : State) (grid : Nat) (status : Byte) : State :=
  if s.grids.any (fun d => d.id == grid) then endOneGrid s grid status
  else (freeSaved s grid).mapSaved fun x => if x.ctx.grids.any fun d => d.id == grid then endInContext s x.ctx grid status else x.ctx

/-- The grids launched by teams of a grid that have not retired, in the machine or in a saved context (05 R128, R136; 16 R391). -/
def childGrids (s : State) (grid : Nat) : List Nat :=
  (s.allGrids.filter fun d => !d.retired && d.launcher.team.any fun t => s.teamOf t grid).map Grid.id

/-- Queued records whose launcher is a team of the grid are ended with it. -/
def endQueued (s : State) (grid : Nat) : State :=
  let mark := fun (r : QueuedRecord) =>
    if r.launcher.team.any fun t => s.teamOf t grid then { r with ended := true } else r
  { s with parts := s.parts.map fun p => { p with launch := p.launch.map fun q => { q with items := q.items.map mark } } }

/-- Ends a grid and its children, to a nesting depth of `fuel` (16 R391). -/
def endGrid : Nat → State → Nat → Byte → State
  | 0, s, _, _ => s
  | fuel + 1, s, grid, status =>
    let kids := childGrids s grid
    kids.foldl (fun s k => endGrid fuel s k status) (endQueued (endAnywhere s grid status) grid)

/-- A context fault of a group: its grid ends with status 0x10, and the error log receives kind 0x05 (16 R391, 20 R448). -/
def contextFault (s : State) (gid : Nat) (cause : Byte) (pc addr : Dword) : State :=
  match s.group? gid with
  | none => s
  | some g =>
    match s.gridOf g with
    | none => exitGroup s gid
    | some d =>
      let s1 := errLog s g.part 0x05 cause addr 0 pc d.number (BitVec.ofNat 32 (s.gridWideId g))
      endGrid 12 s1 d.id 0x10

/-! ### Replies of homes (11 R295 to R299) -/

/-- Changes every outstanding result of a group, those that its exit left behind too. -/
def Group.mapOuts (g : Group) (h : Out → Out) : Group :=
  { g with frags := g.frags.map (fun f => { f with outs := f.outs.map h }), strays := g.strays.map h }

/-- A result takes the reply of a lane it awaits. -/
def Out.reply (o : Out) (id : Nat) (r : Reply) : Out :=
  if o.id = id ∧ o.awaits.contains r.lane = true then
    { o with awaits := o.awaits.filter (fun l => !(l == r.lane)), replies := o.replies ++ [r] }
  else o

/-- A reply reaches the result that awaits it, and is discarded when its requester is gone (11 R301), or leaves for another device; a status of 0x80 or above without
a requester's result is logged (11 R297). -/
def replyTo (s : State) (part : Nat) (r : Request) (w0 w1 : Word) (err : Bool) : State :=
  match r.reply with
  | some d => s.modGroup d.group fun g => g.mapOuts fun o => o.reply d.out { lane := r.lane, w0 := w0, w1 := w1, err := err }
  | none =>
    match r.port with
    | some n => match s.dev.ports.find? fun q => q.num == n && q.up with
      | some q => sendAnswer s q (if err then .error else .words w0 w1)
      | none => s
    | none =>
    match r.ask with
    | .method m => if 0x80 ≤ w1.toNat then errLog s part 0x04 (w1.extractLsb' 0 8) r.base 0 0 r.source (m.setWidth 32) else s
    | _ => s

/-- Replies a status that comes without a value: a bind or an unbind takes it as its result, and the value of a call is open (11 R296, R306). -/
def replyStatus (s : State) (part : Nat) (r : Request) (status : Byte) : State :=
  match r.ask with
  | .method _ => replyTo { s with free := s.free + 1 } part r (BitVec.ofNat 32 (Config.openCode s.free)) (status.setWidth 32) false
  | _ => replyTo s part r (status.setWidth 32) 0 false

/-- Replies one value and status to every request of a bin. -/
def replyAll (s : State) (part : Nat) (rs : List Request) (w0 w1 : Word) : State :=
  rs.foldl (fun s r => replyTo s part r w0 w1 false) s

/-- The partition that owns a home's cluster (19 R437). -/
def partOfHome (s : State) (h : Nat) : Nat := ((s.parts.find? fun p => p.clusters.contains h).map Part.id).getD 0

/-- Ends the batch of a service group without effect: its group goes, its buffer and held posts are discarded (11 R299). -/
def dropBatch (s : State) (h sg : Nat) : State :=
  let s1 := s.modHome h fun x => { x with batches := x.batches.filter fun b => !(b.sg == sg) }
  { s1 with groups := s1.groups.filter fun g => !(g.role == .service h sg) }

/-- A batch that ends with one status in every lane, which the error log records when it is a fatal method fault (11 R293, R299).  The value beside
the status is 0, beside 0xF1 too, for which R293 gives none (DESIGN CHOICE, notes/assumptions/105.md). -/
def failBatch (s : State) (h sg : Nat) (status : Byte) (log : Option (Byte × Dword × Dword)) : State :=
  match (s.home? h).bind fun x => x.batches.find? fun b => b.sg == sg with
  | none => s
  | some b =>
    let part := partOfHome s h
    let s1 := match log with
      | none => s
      | some (cause, addr, pc) =>
        let m := match b.bin.ask with | .method m => m.setWidth 32 | _ => 0
        (errLog s part 0x03 cause addr b.bin.obj pc m (BitVec.ofNat 32 h)).count 3 h 3 1
    dropBatch (replyAll s1 part b.bin.reqs 0 (status.setWidth 32)) h sg

/-- A fatal method fault of a service group (11 R292, R299). -/
def methodFault (s : State) (h sg : Nat) (cause : Byte) (pc addr : Dword) : State :=
  failBatch s h sg 0xF0 (some (cause, addr, pc))

/-! ### Taking a trap and returning (16 R380 to R385) -/

/-- The handler starts, once every outstanding result of the group has landed, which closes every window (03 R82, 16 R380): the trap record is
written with the region state and W, every fragment is held, and the handler's fragment begins at the vector with the trapped fragment's mask. -/
def enterHandler (s : State) (g : Group) (f : Frag) (t : TrapInfo) (late : Bool) (vector : Dword) : State :=
  let (id, s1) := s.fresh
  let rec' : TrapRecord :=
    { cause := t.cause.setWidth 32, mask := t.mask, addr := t.addr, pc := t.pc, resume := t.resume, regionEntry := f.region.entry,
      regionCount := g.regions, flags := (if t.noEffect then 1 else 0) ||| (if late then 2 else 0),
      window := BitVec.ofNat 32 g.window }
  let h := freshFrag id f.mask vector s.tick
  let g1 : Group := { g with
    trap := rec', trapWait := none,
    handler := some { frag := f.id, mask := f.mask, held := g.frags.map Frag.id, stage := g.stage, turn := g.turn }, turn := none,
    frags := g.frags.map (fun x => { x with held := false, outs := [] }) ++ [h] }
  s1.setGroup (newRegion g1 h vector)

/-- The trap vector of a group's grid (05 R124). -/
def vectorOf (s : State) (g : Group) : Dword := match s.gridOf g with | none => 0 | some d => d.record.vector

/-- Lands what can land and starts the handler, or leaves the trap waiting for results that are still out (16 R380). -/
def startTrap (s : State) (g : Group) (fid : Nat) (t : TrapInfo) (late : Bool) : State :=
  let g1 := landReady g
  match g1.frag? fid with
  | none => s.setGroup g1
  | some f =>
    let t1 := t.resumeAt f
    if g1.allLanded then enterHandler s g1 { f with outs := [] } t1 late (vectorOf s g1)
    else s.setGroup { g1 with trapWait := some (fid, t1, late) }

/-- Takes a trap of a fragment: the one operation of every trap (16 R380, R381, R391). -/
def takeTrap (s : State) (gid fid : Nat) (t : TrapInfo) : State :=
  match s.group? gid with
  | none => s
  | some g =>
    match g.role with
    | .service h sg => methodFault s h sg t.cause t.pc t.addr
    | .ordinary =>
      match g.frag? fid with
      | none => s
      | some f =>
        if g.handler.isSome then
          if g.holds f then s.setGroup (g.pend f t)
          else contextFault s gid t.cause t.pc t.addr
        else if vectorOf s g = 0 then contextFault s gid t.cause t.pc t.addr
        else if g.trapWait.isSome then s.setGroup (g.pend f t)
        else startTrap s g fid t false

/-- A trap that reaches a group from outside its units: it is taken by the fragment that holds the lowest lane of its mask
(11 R297, 14 R349, 16 R381). -/
def deliverTrap (s : State) (gid : Nat) (t : TrapInfo) : State :=
  match s.group? gid with
  | none => s
  | some g =>
    match g.fragOfLane t.mask with
    | none => s
    | some f => takeTrap s gid f.id t

/-- The next pending trap of a group: that of the fragment that holds the lowest lane (16 R381). -/
def nextPending (g : Group) : Option (Frag × TrapInfo × List TrapInfo) :=
  match lowestFrag (g.frags.filter fun f => !f.pending.isEmpty) with
  | none => none
  | some f => match f.pending with | [] => none | t :: rest => some (f, t, rest)

/-- Takes a pending trap when the group runs no handler and waits for none (16 R381). -/
def takePending (s : State) (gid : Nat) : State :=
  match s.group? gid with
  | none => s
  | some g =>
    if g.exited || g.handler.isSome || g.trapWait.isSome then s
    else match nextPending g with
      | none => s
      | some (f, t, rest) =>
        if vectorOf s g = 0 then contextFault s gid t.cause t.pc t.addr
        else
          let g1 := g.setFrag { f with pending := rest }
          startTrap (s.setGroup g1) g1 f.id t t.late

/-- Restores the staged registers of a fragment's region (06 R168). -/
def unstage (g : Group) (f : Frag) : Group :=
  let ls := lanesOf f.mask
  let grans := (List.range 16).filter fun j => f.region.mask.getLsbD j
  let g1 := grans.foldl (fun g j => (List.range 8).foldl (fun g k =>
    let r := f.region.base + 8 * j + k
    g.setLanes r ls fun i => sget 0 g.stage.v (32 * r + i)) g) g
  if f.region.sp then
    let g2 := (List.range 64).foldl (fun g n => g.setS n (sget 0 g.stage.s n)) g1
    (List.range 15).foldl (fun g n => g.setP (n + 1) f.mask (sget 0 g.stage.p (n + 1))) g2
  else g1

/-- A result without what it would write in some lanes: those of a fragment that has discarded it (06 R168). -/
def Out.withoutLanes (o : Out) (mask : Word) : Out :=
  { o with
    writes := o.writes.filter fun w => match w.reg with | .v _ => !(mask.getLsbD w.lane) | .s _ => true
    trap := o.trap.bind fun t => if t.mask &&& ~~~mask = 0 then none else some { t with mask := t.mask &&& ~~~mask } }

/-- The copies of a result that a split left in other fragments do not write the lanes of the one that has discarded it (06 R156, R168). -/
def Group.discard (g : Group) (mask : Word) (ids : List Nat) : Group :=
  g.mapOuts fun o => if ids.contains o.id then o.withoutLanes mask else o

/-- Whether a restart keeps a result: those of region-ending instructions are never abandoned (16 R387). -/
def Out.kept (o : Out) : Bool := match o.kind with | .load => false | .compute => false | _ => true

/-- Restarts a fragment: its results are discarded but for those of region-ending instructions, which are never abandoned and from
here on are interlocked; the staged registers come back, and it begins again at its region's entry (06 R168, 16 R387).  A stop or a
replay counts the units performed again once (17 R410). -/
def restartFrag (g : Group) (f : Frag) (recount : Bool) : Group :=
  let kept := fun (o : Out) => o.kept && !o.landed
  let g1 := (unstage g f).discard f.mask ((f.outs.filter fun o => !(kept o)).map Out.id)
  let g2 : Group := { g1 with logical := g1.logical.map fun l => if recount then { l with retired := min l.retired f.region.units } else l }
  g2.setFrag { f with pc := f.region.entry, join := f.region.join, outs := (f.outs.filter kept).map fun o => { o with interlock := true },
                      wait := none, held := false, counted := false }

/-- How the trapped fragment goes on after its handler (16 R385): at the resume PC with what it waited for, at its region's entry, or
at an address. -/
inductive ReturnMode where
  | resume | region
  | addr (a : Dword)
  deriving DecidableEq, Repr

/-- Ends the handler of a group: W and the held fragments come back, and the trapped fragment goes on (16 R385). -/
def leaveHandler (s : State) (g : Group) (h : Handler) (m : ReturnMode) : State :=
  let g1 : Group := { g with
    window := g.trap.window.toNat, handler := none, stage := h.stage, turn := h.turn,
    frags := (g.frags.filter fun f => h.held.contains f.id).map fun f => { f with held := false } }
  s.setGroup (match g1.frag? h.frag with
    | none => g1
    | some f =>
      match m with
      | .resume => g1.setFrag { f with pc := g.trap.resume }
      | .region => restartFrag g1 f false
      | .addr a => g1.setFrag { f with pc := a, wait := none, counted := false })

/-! ### Replayable stalls (08 R221, R222) -/

/-- The requester word of a group's fault record (08 R221). -/
def requesterOf (s : State) (g : Group) : Word :=
  match g.role with
  | .ordinary => requester 0 (s.slotId g)
  | .service h _ => requester 3 h

/-- The distinct 64 KiB regions of a list of faulting addresses, in order, at most 32 (08 R221). -/
def regionsOf (l : List (Dword × Byte × Byte)) : List (Dword × Byte × Byte) :=
  (l.foldl (fun acc x =>
    let p := (x.1 &&& 0xFFFFFFFFFFFF0000#64, x.2.1, x.2.2)
    if acc.any (fun y => y.1 == p.1) then acc else acc ++ [p]) []).take 32

/-- A stalled fragment's records are appended while the fault queue has room, and the rest follow when slots free (08 R221). -/
def stallRecords (s : State) (gid fid : Nat) (todo : List (Dword × Byte × Byte)) (done : List Word) (failed : List Dword)
    (lanes : List (Nat × Dword)) (fetch : Bool) : State :=
  match s.group? gid with
  | none => s
  | some g =>
    let r := faultRecords s g.part (requesterOf s g) todo
    let w : Wait := if r.2.1 = [] then .stall (done ++ r.1) failed lanes fetch else .queueFull r.2.1 (done ++ r.1) failed lanes fetch
    r.2.2.modGroup gid fun g => g.modFrag fid fun f => { f with wait := some w }

/-- A fragment stalls on a replayable fault (08 R221). -/
def stallFrag (s : State) (gid fid : Nat) (todo : List (Dword × Byte × Byte)) (lanes : List (Nat × Dword)) (fetch : Bool) : State :=
  let s1 := stallRecords s gid fid todo [] [] lanes fetch
  match (s1.group? gid).bind s1.coreOf with
  | some c => s1.count 2 c 12 1
  | none => s1

/-! ### Effects that cross to other agents -/

/-- A piece of a store as it is performed: one into a word with an error that the pieces of the store do not cover whole, or one that cannot be
reached, is not performed and is logged; every other is one write, by RMW where it covers only bits, and the error of a word that the store covers
is gone (08 R224, R232). -/
def storePiece (s : State) (gid quantum : Nat) (str : BitVec 4) (pc : Dword) (mask : Word) (ps : List Piece) (p : Piece) : State :=
  match s.group? gid with
  | none => s
  | some g =>
    let n := p.bytes.length
    let whole := coversWord ps p.loc
    let eph := (s.ephGrid g).isSome
    let v : View := if eph then { team := some g.team } else {}
    let bad := (v.hasError s p.loc && !whole) || !(reachable s g.part p.loc)
    if bad then
      (logAccess s g.part p.loc p.addr pc (requesterOf s g)).modGroup gid fun g =>
        { g with narrow := g.narrow ++ [(str, mask, p.addr)] }
    else
      let bs := (List.range n).map fun i => p.onto (p.loc.plus i) (readLoc s v (p.loc.plus i))
      let s1 := if eph then writePhase s g.team quantum (s.gridWideId g) p.loc bs
        else writeLoc (if p.plane then keepPast s .none p.loc n else s) p.loc bs
      let inPhase := match p.loc with | .mem _ => eph | .slice .. => false
      if whole && !inPhase then clearErrors s1 p.loc.word 16 else s1

/-- A store as it is performed, piece by piece. -/
def storeAll (s : State) (gid quantum : Nat) (str : BitVec 4) (pc : Dword) (mask : Word) (ps : List Piece) : State :=
  ps.foldl (fun s p => storePiece s gid quantum str pc mask ps p) s

/-- The nibbles of one byte of a store put into a store buffer: those that the mask names. -/
def bufferByte (m : Cells) (k : Nat) (b mask : Byte) : Cells :=
  let m1 := if mask &&& 0x0F#8 = 0 then m else sput m (2 * k) (b &&& 0x0F#8)
  if mask &&& 0xF0#8 = 0 then m1 else sput m1 (2 * k + 1) (b >>> 4)

/-- A store of a method goes to its batch's buffer, nibble by nibble (11 R293). -/
def bufferPiece (s : State) (h sg : Nat) (p : Piece) : State :=
  match p.loc with
  | .slice .. => s
  | .mem k =>
    let maskAt := fun (i : Nat) => if p.mask = [] then 0xFF#8 else p.mask.getD i 0
    let put := fun (m : Cells) => (List.range p.bytes.length).foldl (fun m i => bufferByte m (k + i) (p.bytes.getD i 0) (maskAt i)) m
    s.modHome h fun x => { x with batches := x.batches.map fun b => if b.sg = sg then { b with buffer := put b.buffer } else b }

/-- Every fragment that waits on a barrier word of a team is judged again: an armed word frees the arrivals (12 R316). -/
def barWord (s : State) (team word : Nat) : Nat × Nat × Nat :=
  let bs := natOfBytes (readLocs s {} (.slice team (8 * word)) 8)
  (bitsOf bs 63 32, bitsOf bs 31 16, bitsOf bs 15 0)

/-- A write to a team's slice that a release of quantum `q` of a group brings about: in a running phase it takes its place among the
releases of the team (17 R404). -/
def writeSlice (s : State) (team q gid off : Nat) (bs : List Byte) : State :=
  if ((s.team? team).bind fun t => s.grid? t.grid).any fun d => d.phase.isSome then writePhase s team q gid (.slice team off) bs
  else writeAt s q (.slice team off) bs

/-- Writes a barrier word: phase, arrived, count (12 R315); `gid` is the grid-wide id of the group whose release does so. -/
def putBarWord (s : State) (q gid team word phase arrived count : Nat) : State :=
  writeSlice s team q gid (8 * word) (bytesOfNat 8 (phase % pow2 32 * pow2 32 + arrived % pow2 16 * pow2 16 + count % pow2 16))

/-- A phase that a release of quantum `q` completes: the fragments that wait on the word go on after it (17 R405). -/
def wakePhase (s : State) (q team word : Nat) : State :=
  { s with groups := s.groups.map fun g =>
      if g.team = team ∧ g.role = .ordinary then
        g.wake q fun f => match f.wait with | some (.phase w _) => w == word | _ => false
      else g }

/-- One arrival at an armed word (12 R317): the token, and the state after it. -/
def arrive (s : State) (q gid team word : Nat) : Word × State :=
  let (phase, arrived, count) := barWord s team word
  let a := (arrived + 1) % pow2 16
  let s1 := if a = count then wakePhase (putBarWord s q gid team word (phase + 1) 0 count) q team word
    else putBarWord s q gid team word phase a count
  (BitVec.ofNat 32 phase, s1)

/-- Whether a word of a team is armed (12 R316). -/
def isArmed (s : State) (team word : Nat) : Bool := (s.team? team).any fun t => t.arm.getLsbD word

/-- An arrival that a fragment makes with a release of quantum `q`: its token goes to s[d], and a BARAW waits for the phase (12 R317; 17 R405). -/
def arriveFrag (s : State) (q gid fid word : Nat) (d : BitVec 6) (thenWait : Bool) : State :=
  match s.group? gid with
  | none => s
  | some g =>
    let (tok, s1) := arrive s q (s.gridWideId g) g.team word
    s1.modGroup gid fun g =>
      let g1 := g.setS d.toNat tok
      match g1.frag? fid with
      | none => g1
      | some f =>
        let f1 := { f with wait := if thenWait then some (.phase word tok) else none, after := Nat.max f.after q }
        if f.unperformed then newRegion (g1.setFrag f1) f1 f.pc else g1.setFrag f1

/-- The quantum whose release armed a word in a running phase; 0 outside one (17 R405). -/
def armTime (s : State) (team word : Nat) : Nat :=
  (((s.team? team).bind fun t => t.writes.find? fun w => w.key == armKey word).map PhaseWrite.quantum).getD 0

/-- The arming of a word, among the releases of its team where a phase runs (17 R404). -/
def armWord (s : State) (q gid team word : Nat) : State :=
  let eph := ((s.team? team).bind fun t => s.grid? t.grid).any fun d => d.phase.isSome
  s.modTeam team fun t => { t with
    arm := t.arm ||| (1#16 <<< word)
    writes := if eph then t.writes ++ [{ quantum := q, gid := gid, key := armKey word, val := 1, place := t.released }] else t.writes }

/-- The first BARI arms a word and frees the arrivals that wait for it (12 R316, R317); in Ephemeris mode a case that would trap changes nothing
(17 R409).  The order in which several of them are performed, which fixes their tokens, no rule gives: it is that of their groups and fragments
(DESIGN CHOICE, notes/assumptions/106.md). -/
def initBarrier (s : State) (q gid team word : Nat) (c : Nat) : State :=
  match s.team? team with
  | none => s
  | some t =>
    if t.arm.getLsbD word then
      let (phase, arrived, count) := barWord s team word
      if count ≠ c ∧ arrived = 0 then putBarWord s q gid team word phase 0 c else s
    else
      let s1 := putBarWord (armWord s q gid team word) q gid team word 0 0 c
      let waiters := s1.groups.flatMap fun g =>
        if g.team = team ∧ g.role = .ordinary then
          g.frags.filterMap fun f => match f.wait with
            | some (.arm w d tw) => if w = word then some (g.id, f.id, d, tw) else none
            | _ => none
        else []
      waiters.foldl (fun s w => arriveFrag s q w.1 w.2.1 word w.2.2.1 w.2.2.2) s1

/-- The team whose releases an atomic of a running phase stands among. -/
def teamOfAtomic (s : State) (r : Request) : Option Team :=
  r.time.bind fun _ => (r.group.bind s.group?).bind fun g => s.team? g.team

/-- Where an atomic stands in logical order (17 R404, R406). -/
def Request.mark (r : Request) (k : Nat) : PhaseWrite :=
  let x := r.time.getD (0, 0)
  { quantum := x.1, gid := x.2, key := k, val := 0, place := r.place, atomic := true }

/-- A byte as an atomic finds it: in a running phase, what a store of its own team that comes last in logical order has left there (13 R325;
17 R401, R404), and else what memory holds, where the earlier atomics of every team have left their results (17 R406). -/
def atomicByte (s : State) (r : Request) (l : Loc) : Byte :=
  match l, teamOfAtomic s r with
  | .mem k, some t => match lastWrite t k fun w => w.le (r.mark k) with
    | some w => if w.atomic then readKey s k else w.val
    | none => readKey s k
  | _, _ => readLoc s {} l

/-- An atomic of a phase changes some bytes of memory: what they were when the phase started is kept for the teams that have not written them
(17 R401). -/
def keepStart (s : State) (grid : Option Nat) (k n : Nat) : State :=
  match grid with
  | none => s
  | some d => s.modGrid d fun x => { x with phase := x.phase.map fun ph => { ph with
      before := keepBytes s k n ph.before } }

/-- Bytes that memory takes in for everyone in a running phase: what they were when it started is kept, and they stand among the writes of the team
of the request that brings them about (17 R401, R404, R406). -/
def noteShared (s : State) (r : Request) (k : Nat) (bs : List Byte) : State :=
  if r.time.isNone then s
  else
    let s1 := keepStart s r.grid k bs.length
    match teamOfAtomic s r with
    | none => s1
    | some t => s1.modTeam t.id fun t => { t with writes := t.writes ++ bs.mapIdx fun i b => { r.mark (k + i) with val := b } }

/-- The last request of each team among those of a batch: a write of its method stands among the writes of every team that asked (17 R404, R406;
DEDUCED, notes/assumptions/21.md). -/
def askers (s : State) (rs : List Request) : List Request :=
  let team := fun (r : Request) => (r.grid, (teamOfAtomic s r).map Team.id)
  rs.foldl (fun acc r => acc.filter (fun x => team x != team r) ++ [r]) []

/-- The same for a write that the method of a batch makes. -/
def noteBatch (s : State) (rs : List Request) (l : Loc) (bs : List Byte) : State :=
  match l with
  | .slice .. => s
  | .mem k => (askers s rs).foldl (fun s r => noteShared s r k bs) s

/-- The bytes that an atomic leaves: in memory, for the atomics of everyone (17 R406), and among the writes of its team, for the team's view. -/
def atomicWrite (s : State) (q : Nat) (r : Request) (l : Loc) (bs : List Byte) : State :=
  match l with
  | .slice team o => match r.group.bind s.group? with
    | some g => writeSlice s team q (s.gridWideId g) o bs
    | none => writeAt s q l bs
  | .mem k => writeAt (noteShared s r k bs) q l bs

/-- Performs one atomic request on a value of a location: its old bytes, and the state with the new (12 R309, R312).  On a tier-1 element
the value is the one that the first of its two accesses has found (19 R436). -/
def atomicAt (s : State) (q : Nat) (r : Request) (op t : Nat) : Nat × State :=
  let n := if t = 2 ∨ t = 3 ∨ t = 5 then 8 else 4
  let old := r.found.getD (natOfBytes ((List.range n).map fun i => atomicByte s r (r.loc.plus i)))
  (old, atomicWrite s q r r.loc (atomicBytes op t (bytesOfNat n old) r.op0 r.op1))

/-- The two words of an ATOM's reply: old and new for 32-bit types, the old value for 64-bit types (12 R310). -/
def atomicWords (op t : Nat) (old : Nat) (op0 op1 : Word) : Word × Word :=
  if t = 2 ∨ t = 3 ∨ t = 5 then (BitVec.ofNat 32 old, BitVec.ofNat 32 (old / pow2 32))
  else (BitVec.ofNat 32 old, BitVec.ofNat 32 (atomicNew op t old op0.toNat op1.toNat))

/-- Performs an intrinsic request at its element and replies (12 R309, R310, R313): an error or an element out of reach leaves the
element unchanged, and the address is logged. -/
def performAtomic (s : State) (q part : Nat) (r : Request) : State :=
  match r.ask with
  | .intrinsic op t =>
    let v : View := match r.time with | some _ => { team := (teamOfAtomic s r).map Team.id } | none => {}
    if v.broken s part r.loc r.ask.bytes then
      let who := match r.group.bind s.group? with | some g => requesterOf s g | none => requester 3 r.home
      let s1 := logAccess s part r.loc r.base r.pc who
      replyTo s1 part r 0 0 true
    else
      let (old, s1) := atomicAt s q r op.toNat t.toNat
      let w := atomicWords op.toNat t.toNat old r.op0 r.op1
      replyTo s1 part r w.1 w.2 false
  | _ => s

/-- A status that another device's home gives: of an OBJBIND or an OBJUNBIND one of those that their table holds, of a method any that is ever
replied (11 R296, R306). -/
def remoteStatus (a : Ask) (b : Byte) : Word :=
  match a with
  | .bind .. => BitVec.ofNat 32 (b.toNat % 5)
  | .unbind => if b = 0 then 0 else 5
  | _ => BitVec.ofNat 32 (b.toNat % 0xF5)

/-- A RED on its way to another device: a release that covers it waits for its acknowledgement, as for a store's (13 R331, 19 R426). -/
def noteRed (s : State) (r : Request) (flits : List (Nat × BitVec 12)) : State :=
  match r.group with
  | none => s
  | some gid => s.modGroup gid fun g => { g with wire := g.wire ++ flits.map fun f => (r.str, f.1, f.2, r.base) }

/-- A request of another device's home: it travels as a flit, and is answered there; an object request's answer is a free value
(19 R431, R432). -/
def performRemote (s : State) (q part : Nat) (r : Request) : State :=
  if !(reachable s part r.loc) then
    match r.ask with
    | .intrinsic .. => performAtomic s q part r
    | _ => replyStatus s part r 0xF4
  else
    let sent := sendFlit s part r.loc
    let s1 := match r.reply with
      | none => if r.ask.isIntrinsic then noteRed sent.1 r sent.2 else sent.1
      | some d => sent.1.modGroup d.group fun g => g.mapOuts fun o =>
          if o.id = d.out then { o with flits := o.flits ++ sent.2.map fun f => (f.1, f.2, r.lane) } else o
    match r.ask with
    | .intrinsic .. => performAtomic s1 q part r
    | _ =>
      if refusedRemote r.loc then replyStatus s1 part r 0xF2
      else
        let a := Config.remoteReply s1.free
        match r.ask with
        | .method _ => replyTo { s1 with free := s1.free + 1 } part r a.1 (remoteStatus r.ask a.2) false
        | _ => replyTo { s1 with free := s1.free + 1 } part r (remoteStatus r.ask a.2) 0 false

/-- Sends a request: to a home of this device, where it arrives later, or to another device (11 R280, R285). -/
def sendRequest (s : State) (q part : Nat) (r : Request) : State :=
  if keyTier (match r.loc with | .mem k => k | .slice .. => 0) = 3 then performRemote s q part r
  else { s with flight := s.flight ++ [r] }

/-- Every request that a home still holds or that is on its way to one. -/
def openRequests (s : State) : List Request :=
  s.flight ++ s.homes.flatMap fun h =>
    h.queue ++ (h.bins.flatMap Bin.reqs) ++ (h.closed.flatMap Bin.reqs) ++ h.batches.flatMap fun b => b.bin.reqs

/-- Changes every request that a home still holds or that is on its way to one. -/
def State.mapRequests (s : State) (f : Request → Request) : State :=
  let bin := fun (b : Bin) => { b with reqs := b.reqs.map f }
  { s with
    flight := s.flight.map f
    homes := s.homes.map fun h => { h with
      queue := h.queue.map f, bins := h.bins.map bin, closed := h.closed.map bin, batches := h.batches.map fun b => { b with bin := bin b.bin } } }

/-- The intrinsic requests of a group that their homes have not performed (12 R309). -/
def openAtomics (s : State) (gid : Nat) : List Request := (openRequests s).filter fun r => r.group == some gid && r.ask.isIntrinsic

/-- Whether a request that a group released in a quantum up to `q` of a running phase is still to be performed at its home: what a release hands to
an engine after it observes it (10 R266; 13 R326; 17 R404; DEDUCED, notes/assumptions/108.md). -/
def atomicsBefore (s : State) (gid q : Nat) : Bool := (openAtomics s gid).any fun r => r.time.any fun x => decide (x.1 ≤ q)

/-- The results of a group whose commits are still to be made: PADDCs that have read their blocks (18 R415). -/
def Group.openCommits (g : Group) : List Out := (g.frags.flatMap Frag.outs ++ g.strays).filter fun o => !o.commit.isEmpty

/-- Whether an access of `n` bytes meets what the group's own atomic or PADDC has still to change: the accesses of one group to one
location take effect in program order (13 R325). -/
def meetsAtomic (s : State) (gid : Nat) (l : Loc) (n : Nat) : Bool :=
  ((openAtomics s gid).any fun r => overlaps r.loc r.ask.bytes l n) ||
  (s.group? gid).any fun g => g.openCommits.any fun o => o.commit.any fun p => overlaps p.loc p.bytes.length l n

/-! ### Queues -/

/-- Changes a feeder. -/
def modFeeder (s : State) (core n : Nat) (f : Feeder → Feeder) : State :=
  { s with feeders := s.feeders.map fun x => if x.core = core ∧ x.num = n then f x else x }

/-- A feeder of a core. -/
def feeder? (s : State) (core n : Nat) : Option Feeder := s.feeders.find? fun x => x.core == core && x.num == n

/-- Changes a copy queue. -/
def modCopyQ (s : State) (part n : Nat) (f : CopyQueue → CopyQueue) : State :=
  { s with copies := s.copies.map fun x => if x.part = part ∧ x.num = n then f x else x }

/-- A copy queue of a partition. -/
def copyQ? (s : State) (part n : Nat) : Option CopyQueue := s.copies.find? fun x => x.part == part && x.num == n

/-- The number of the copy engine that serves a copy queue: one of the partition's, and which is open (08 R221, 10 R262). -/
def copyEngine (s : State) (part q : Nat) : Nat :=
  match s.part? part with
  | none => 0
  | some p => p.engines.getD (Config.copyEngine part q % max 1 p.engines.length) 0

/-- Changes a matrix queue. -/
def modMat (s : State) (core : Nat) (f : MatQueue → MatQueue) : State :=
  { s with mats := s.mats.map fun x => if x.core = core then f x else x }

/-- The matrix queue of a core. -/
def matQ? (s : State) (core : Nat) : Option MatQueue := findBy MatQueue.core s.mats core

/-- A FIFO of a core. -/
def fifo? (s : State) (core n : Nat) : Option Fifo := s.fifos.find? fun x => x.core == core && x.num == n

/-- Changes a FIFO. -/
def modFifo (s : State) (core n : Nat) (f : Fifo → Fifo) : State :=
  { s with fifos := s.fifos.map fun x => if x.core = core ∧ x.num = n then f x else x }

/-- Changes a work queue of a partition. -/
def modWork (s : State) (part n : Nat) (f : WorkQueue → WorkQueue) : State :=
  s.modPart part fun p => { p with work := p.work.mapIdx fun i w => if i = n then f w else w }

/-- A work queue of a partition, when system software has set it up: k from 4 to 20 (05 R137). -/
def workQ? (s : State) (part n : Nat) : Option WorkQueue :=
  match s.part? part with
  | none => none
  | some p => match p.work[n]? with
    | some w => if 4 ≤ w.k ∧ w.k ≤ 20 then some w else none
    | none => none

/-- A command of a queue, as QWAIT names it, completes: the fragments that wait for it in Ephemeris mode go on after the quantum of their own
grid that handed it over (17 R405); `mine` says whose queue it is. -/
def wakeQueue (s : State) (mine : Group → Bool) (queue : Nat) (seq : Word) (q : Nat) (grid : Option Nat) : State :=
  { s with groups := s.groups.map fun g =>
      if mine g && (s.gridOf g).map Grid.id == grid then
        g.wake q fun f => match f.wait with | some (.queue n m) => n == queue && m == seq | _ => false
      else g }

/-- Commands in a queue, markers not counted (10 R277). -/
def countCmds {α : Type} (l : List (QItem α)) : Nat := (l.filter fun x => match x with | .cmd _ => true | .marker _ => false).length

/-! ### Command words (14 R343, R344) -/

/-- K, N and M of a command word. -/
def cwK (w : Word) : Nat := 8 * ((w.extractLsb' 12 9).toNat + 1)
def cwN (w : Word) : Nat := 32 * pow2 (w.extractLsb' 10 2).toNat
def cwM (w : Word) : Nat := 32 * pow2 (w.extractLsb' 8 2).toNat

/-- The accumulator element type: 0 f32, 1 f64, 2 i32. -/
def cwType (w : Word) : Nat := (w.extractLsb' 21 2).toNat

/-- The first accumulator tile. -/
def cwBase (w : Word) : Nat := (w.extractLsb' 0 7).toNat

/-- Tile numbers of an M × N output. -/
def cwTiles (w : Word) : Nat := (cwM w / 32) * (cwN w / 32) * (if cwType w = 1 then 2 else 1)

/-- K-tiles of an operand (14 R347). -/
def cwKT (w : Word) : Nat := (cwK w + 31) / 32

/-- The stream tiles that a command consumes (14 R347, R351, 15 R375): of A and of B. -/
def MatCmd.tilesA (c : MatCmd) : Nat :=
  match c.kind, c.joint with
  | .mma, some (_, _, m) => if m = 0 then (cwM c.word / 32) * cwKT c.word else 0
  | .mma, none => (cwM c.word / 32) * cwKT c.word
  | .mmas, _ => (cwM c.word / 32) * cwKT c.word
  | _, _ => 0
def MatCmd.tilesB (c : MatCmd) : Nat :=
  match c.kind with
  | .mma => cwKT c.word * (cwN c.word / 32)
  | .mmas => cwKT c.word * (cwN c.word / 32)
  | .mmap => cwKT c.word * (cwN c.word / 32)
  | _ => 0

/-- Whether an entry of the matrix queue is a matrix command; MSTAT only holds its place (14 R342, R360). -/
def MatCmd.isCommand (c : MatCmd) : Bool := match c.kind with | .mstat .. => false | _ => true

/-- Whether an effect is the place of an MSTAT in the matrix queue. -/
def Effect.isStatus (e : Effect) : Bool := match e with | .matrix _ c => !c.isCommand | _ => false

/-! ### Streams (10 R258, R261) -/

/-- The FIFO of a stream-bound handle (10 R274). -/
def streamOf (h : Handle) : Option Nat := if h.dest.getLsbD 31 then none else some (h.dest.extractLsb' 0 4).toNat

/-- The tiles at the head of a FIFO that a failed command discards: up to the count, and up to a failure (14 R349). -/
def discardable : Nat → List StreamTile → Nat
  | 0, _ => 0
  | _, [] => 0
  | n + 1, t :: r => if t.failure.isSome then 0 else 1 + discardable n r

/-- Discards what a failed command still consumes of a FIFO; the stream position counts the tiles (10 R261, 14 R349). -/
def discardHead (s : State) (core n : Nat) : State :=
  match fifo? s core n with
  | none => s
  | some f =>
    let k := discardable f.discard f.tiles
    let s1 := modFifo s core n fun f =>
      if k = 0 then f else { f with tiles := f.tiles.drop k, discard := f.discard - k, pause := none, got := {} }
    match f.bound with
    | none => s1
    | some (gid, t) => s1.modGroup gid fun g =>
        { g with handles := modBy Handle.num g.handles t fun h => { h with position := h.position + BitVec.ofNat 32 k } }

/-- The rest of the tiles of one operand of a failed command are consumed and discarded, unless the stream has failed (14 R349). -/
def discardRest (s : State) (core gid handle left : Nat) : State :=
  match (s.group? gid).bind fun g => g.handle? handle with
  | none => s
  | some h =>
    match streamOf h with
    | none => s
    | some n => if h.failed then s else discardHead (modFifo s core n fun f => { f with discard := f.discard + left }) core n

/-- What a failed command still needs of its streams is discarded. -/
def discardStreams (s : State) (core : Nat) (c : MatCmd) : State :=
  let s1 := discardRest s core c.group c.ha (c.tilesA - c.aTiles.length)
  discardRest s1 core c.group c.hb (c.tilesB - c.bTiles.length)

/-! ### Matrix commands that fail, and the rendezvous latch (14 R349, R352) -/

/-- The group ids of a gang: (rank, group number) members of the gang set of a group's team (05 R135). -/
def gangGroups (s : State) (g : Group) (members : List (Nat × Nat)) : List Nat :=
  match s.team? g.team with
  | none => []
  | some t => members.map fun m =>
      ((s.groups.find? fun x => x.role == .ordinary && x.num == m.2 &&
        ((s.team? x.team).any fun u => u.grid == t.grid && u.setFirst == t.setFirst && u.rank == m.1)).map Group.id).getD 0

/-- The latch of a joint command: its members' group ids and its number. -/
def latchKey (s : State) (c : MatCmd) : Option (List Nat × Nat) :=
  match c.joint, s.group? c.group with
  | some (j, ms, _), some g => some (gangGroups s g ms, j)
  | _, _ => none

/-- Everything that joint commands of one number must agree on: M, N, K and type, the slot's format and scale form, nega, negb, nacc
and rel (14 R352). -/
def jointAgree (s : State) (a b : MatCmd) : Bool :=
  let fmt := fun (c : MatCmd) => match s.group? c.group with
    | none => 0
    | some g => match s.gridOf g with | none => 0 | some d => (d.record.fmt.getD c.slot.toNat 0).toNat % pow2 8
  let shape := fun (c : MatCmd) => c.word.toNat / 128
  let ms := fun (c : MatCmd) => match c.joint with | some (_, l, _) => l | none => []
  shape a == shape b && fmt a == fmt b && a.px.nega == b.px.nega && a.px.negb == b.px.negb && a.px.nacc == b.px.nacc &&
    a.px.rel == b.px.rel && ms a == ms b

/-- A fragment that holds the lowest lane of a mask leaves its MWAIT to take a trap (14 R349). -/
def leaveBatch (mask : Word) (f : Frag) : Frag :=
  match f.wait with
  | some (.batch _) => if f.mask.getLsbD (lowestLane mask) then { f with wait := none } else f
  | _ => f

/-- The other members' commands of a joint command whose latch has opened (14 R351, R352). -/
def openMembers (s : State) (c : MatCmd) : List MatCmd :=
  match latchKey s c with
  | none => []
  | some k => (s.mats.flatMap MatQueue.cmds).filter fun x => x.group != c.group && !x.latched && latchKey s x == some k

/-- The matrix commands of a group from one of its order on: in the queues, and held to the quantum's end (14 R349, 17 R407). -/
def cmdsFrom (s : State) (gid index : Nat) : List MatCmd :=
  let held := match (s.group? gid).bind Group.logical with | none => [] | some l => l.held
  ((s.mats.flatMap MatQueue.cmds) ++ held.filterMap fun e => match e with | .matrix _ c => some c | _ => none).filter fun x =>
    x.isCommand && x.group == gid && decide (index ≤ x.index)

/-- Those commands are discarded. -/
def dropFrom (s : State) (gid index : Nat) : State :=
  let later := fun (x : MatCmd) => x.isCommand && x.group == gid && decide (index ≤ x.index)
  let s1 : State := { s with mats := s.mats.map fun q => { q with cmds := q.cmds.filter fun x => !(later x) } }
  s1.modGroup gid fun g =>
    { g with logical := g.logical.map fun l => { l with held := l.held.filter fun e => match e with | .matrix _ c => !(later c) | _ => true } }

/-- The trap of a matrix command goes to its group, or to the log when the group has exited (14 R349). -/
def trapCmd (s : State) (c : MatCmd) (cause : Byte) (addr : Dword) : State :=
  match s.group? c.group with
  | none => s
  | some g =>
    if g.exited || g.frags.isEmpty then
      let n := match s.gridOf g with | none => 0 | some d => d.number
      errLog s g.part 0x08 cause addr 0 c.pc n (BitVec.ofNat 32 (s.gridWideId g))
    else
      let g1 : Group := { g with frags := g.frags.map (leaveBatch c.mask) }
      deliverTrap (s.setGroup g1) g1.id { cause := cause, mask := c.mask, addr := addr, pc := c.pc, resume := 0, noEffect := false }

/-- A discarded joint command is a failed arrival at its number: the others that wait there, or that an open latch has let go, are to fail, but
for those that are discarded too.  One that is only held comes to a number that has failed (14 R349, R352). -/
def failArrival (gone queued : List MatCmd) (x : State × List MatCmd) (c : MatCmd) : State × List MatCmd :=
  let others := fun (l : List MatCmd) => x.2 ++ l.filter fun y => !(gone.any fun z => z.id == y.id) && !(x.2.any fun z => z.id == y.id)
  match latchKey x.1 c with
  | none => x
  | some (ms, j) =>
    match x.1.latches.find? fun l => l.members == ms && l.j == j with
    | some l =>
      if l.failed then x
      else ({ x.1 with latches := x.1.latches.map fun y => if y.members = ms ∧ y.j = j then { y with failed := true, arrived := [] } else y },
        others l.arrived)
    | none =>
      if !(queued.any fun y => y.id == c.id) then
        ({ x.1 with latches := x.1.latches ++ [{ members := ms, j := j, arrived := [], failed := true }] }, x.2)
      else if c.started || c.latched then x
      else (x.1, others (openMembers x.1 c))

/-- Matrix commands that fail together: they and the later commands of their groups are discarded before any of them traps, so that a number at
which two of them stand fails once.  The answer is the state and the first command of each group that fails with them (14 R349, R352). -/
def failTogether (s : State) (l : List (MatCmd × Byte × Dword)) : State × List MatCmd :=
  let queued := s.mats.flatMap MatQueue.cmds
  let gone := l.flatMap fun x => cmdsFrom s x.1.group x.1.index
  let core := fun (c : MatCmd) => ((s.mats.find? fun q => q.cmds.any fun x => x.id == c.id).map MatQueue.core).getD 0
  let s1 := l.foldl (fun t x => discardStreams (dropFrom t x.1.group x.1.index) (core x.1) x.1) s
  let s2 := l.foldl (fun t x => trapCmd t x.1 x.2.1 x.2.2) s1
  let r := (gone.filter fun c => c.joint.isSome).foldl (failArrival gone queued) (s2, [])
  (r.1, r.2.filter fun c => r.2.all fun y => y.group != c.group || decide (c.index ≤ y.index))

/-- Rounds of failures, while some are left. -/
def failRounds : Nat → State → List (MatCmd × Byte × Dword) → State
  | 0, s, _ => s
  | _, s, [] => s
  | fuel + 1, s, l =>
    let r := failTogether s l
    failRounds fuel r.1 (r.2.map fun c => (c, causeGang, 0))

/-- Matrix commands fail together in the engine or at their latch; each round discards one command at least (14 R349, R352). -/
def matFailAll (s : State) (l : List (MatCmd × Byte × Dword)) : State := failRounds ((s.mats.flatMap MatQueue.cmds).length + 1) s l

/-- A matrix command fails. -/
def matFail (s : State) (c : MatCmd) (cause : Byte) (addr : Dword) : State := matFailAll s [(c, cause, addr)]

/-- A joint command arrives at its latch, which opens when every member's command of that number is there and they agree; it fails when
they do not, or when the number has failed (14 R351, R352). -/
def latchArrive (s : State) (c : MatCmd) : State :=
  match latchKey s c with
  | none => s
  | some (ms, j) =>
    match s.latches.find? fun l => l.members == ms && l.j == j with
    | none => { s with latches := s.latches ++ [{ members := ms, j := j, arrived := [c], failed := false }] }
    | some l =>
      if l.failed then matFail s c causeGang 0
      else
        let all := l.arrived ++ [c]
        if all.length < ms.length then
          { s with latches := s.latches.map fun y => if y.members = ms ∧ y.j = j then { y with arrived := all } else y }
        else if all.all (fun x => jointAgree s x c) then
          let s1 : State := { s with
            latches := s.latches.filter fun y => !(y.members == ms && y.j == j)
            mats := s.mats.map fun q => { q with cmds := q.cmds.map fun x => if all.any (fun y => y.id == x.id) then { x with latched := false } else x } }
          match (s.group? c.group).bind s.coreOf with
          | some k => s1.count 1 (k / 4) 0 1
          | none => s1
        else
          let s1 : State := { s with latches := s.latches.map fun y => if y.members = ms ∧ y.j = j then { y with failed := true, arrived := [] } else y }
          matFailAll s1 (all.map fun x => (x, causeGang, 0))

/-! ### Performing an effect -/

/-- A DEQ or DEQT of an issue number takes an item into a quad: an item on its way there from one issued earlier is overwritten, and the
answer is whether one issued later has taken an item into it already (03 R60, 05 R142). -/
def Group.claim (g : Group) (d out : Nat) : Group × Bool :=
  let later := g.taken.any fun x => x.1 == d && decide (out < x.2)
  let g1 := g.mapOuts fun o => if decide (o.id < out) && o.regs.head? == some (.s d) && o.regs.length == 4 then { o with writes := [] } else o
  (if later then g else { g1 with taken := g.taken.filter (fun x => !(x.1 == d)) ++ [(d, out)] }, later)

/-- A fragment takes an item of a work queue into s[d] to s[d+3] (05 R142), which the release of quantum `q` enqueued (17 R405).  One that was
parked has now taken effect, and its region ends (06 R167). -/
def takeItem (s : State) (gid fid out d la q : Nat) (item : List Word) : State :=
  s.modGroup gid fun g0 =>
    match g0.frag? fid with
    | none => g0
    | some f =>
      let (g, later) := g0.claim d out
      let regs := [RegRef.s d, .s (d + 1), .s (d + 2), .s (d + 3)]
      let ws := (List.range 4).map fun i => ({ reg := .s (d + i), lane := 0, val := item.getD i 0 } : RegWrite)
      let o : Out := { newOut out .kept regs la f.pc with writes := if later then [] else ws, quantum := q }
      let f1 := { (g.frag? fid).getD f with wait := none, after := Nat.max f.after q }
      let f2 := { f1 with outs := f1.outs ++ [o] }
      if f.unperformed then newRegion (g.setFrag f2) f2 f.pc else g.setFrag f2

/-- Removes the head item of a work queue. -/
def popWork (s : State) (part n : Nat) : State :=
  modWork s part n fun w => { w with items := w.items.drop 1, stamps := w.stamps.drop 1 }

/-- The grid of a group. -/
def gridId (s : State) (g : Group) : Nat := ((s.gridOf g).map Grid.id).getD 0

/-- The quantum whose release has enqueued the head item of a work queue, 0 when that was no release of a grid's running phase (17 R405). -/
def WorkQueue.headTime (w : WorkQueue) (grid : Nat) : Nat :=
  match w.stamps with
  | (q, d) :: _ => if d = grid then q else 0
  | [] => 0

/-- A command that a release of a running phase hands over, among those of its queue (17 R405). -/
def handedOver (l : List (Word × Nat × Nat)) (n : Word) (q grid : Nat) : List (Word × Nat × Nat) :=
  if q = 0 then l else l.filter (fun x => x.1 != n) ++ [(n, q, grid)]

/-- The bytes of work queue items in their ring (05 R137). -/
def writeItems (s : State) (w : WorkQueue) (items : List (List Word)) : State :=
  (items.foldl (fun (st : State × Nat) it =>
    (writeLoc st.1 (.mem (w.base.toNat + 16 * (st.2 % pow2 w.k))) (it.flatMap fun x => bytesOfNat 4 x.toNat), st.2 + 1)) (s, w.tail)).1

/-- Serves the fragments parked in DEQ on a queue in the order they parked, while it holds items (05 R137): those that still wait and
are resident.  Behind one of an evicted team the others wait, though a DEQ that issues then
may take the item; one that a running handler holds takes its item too (DESIGN CHOICE, notes/assumptions/83.md). -/
def serveQueue : Nat → State → Nat → Nat → State
  | 0, s, _, _ => s
  | fuel + 1, s, part, n =>
    match workQ? s part n with
    | none => s
    | some w =>
      match w.items, w.parked with
      | item :: _, (gid, fid) :: rest =>
        let s1 := modWork s part n fun w => { w with parked := rest }
        match (s.group? gid).bind fun g => (g.frag? fid).bind Frag.wait with
        | some (.deq k d la out) =>
          if k = n then
            match (s.group? gid).filter fun g => (s.coreOf g).isSome with
            | some g => serveQueue fuel (takeItem (popWork s1 part n) gid fid out d la (w.headTime (gridId s g)) item) part n
            | none => s
          else serveQueue fuel s1 part n
        | _ => serveQueue fuel s1 part n
      | _, _ => s

/-- Places a marker in a copy queue that is named (10 R277). -/
def CopyQueue.mark (x : CopyQueue) (named : Bool) (n : Nat) : CopyQueue :=
  if named then { x with items := x.items ++ [.marker n] } else x

/-- Places a marker in a feeder queue that is named (10 R277). -/
def Feeder.mark (x : Feeder) (named : Bool) (n : Nat) : Feeder :=
  if named then { x with items := x.items ++ [.marker n] } else x

/-- Performs an effect of a group at a quantum, 0 outside Ephemeris mode (17 R404, R406, R407). -/
def perform (s : State) (gid q : Nat) (e : Effect) : State :=
  match s.group? gid with
  | none => s
  | some g =>
    match e with
    | .store ps str pc mask =>
      match g.role with
      | .service h sg => ps.foldl (fun s p => bufferPiece s h sg p) s
      | .ordinary => storeAll s gid q str pc mask ps
    | .windowAtomic r => performAtomic s q g.part r
    | .barInit word c => initBarrier s q (s.gridWideId g) g.team word c.toNat
    | .barArrive word f d tw =>
      if isArmed s g.team word then
        let at_ := Nat.max q (armTime s g.team word)
        arriveFrag s at_ gid f word d tw
      else s.modGroup gid fun g => (g.reopen f).modFrag f fun x => { x with wait := some (.arm word d tw) }
    | .request r => sendRequest (if q = 0 then s else s.modTeam g.team fun t => { t with released := t.released + 1 }) q g.part { r with
        time := if q = 0 then none else some (q, s.gridWideId g), place := placeOf s g.team }
    | .matrix core c =>
      let c1 := { c with quantum := q, latched := c.joint.isSome }
      let s1 := modMat s core fun m => { m with cmds := m.cmds ++ [c1] }
      if c.joint.isSome then latchArrive s1 c1 else s1
    | .feed core n c => modFeeder s core n fun x => { x with
        items := x.items ++ [.cmd { c with quantum := q }], times := handedOver x.times c.seq q (gridId s g) }
    | .copy n c => modCopyQ s g.part n fun x => { x with
        items := x.items ++ [.cmd { c with quantum := q }], times := handedOver x.times c.seq q (gridId s g) }
    | .marker mask core n =>
      { s with
        copies := s.copies.map fun x => x.mark (x.part == g.part && mask.getLsbD x.num) n
        feeders := s.feeders.map fun x => x.mark (x.core == core && mask.getLsbD (16 + x.num)) n }
    | .enq n items =>
      match workQ? s g.part n with
      | none => s
      | some w =>
        let s1 := modWork (writeItems s w items) g.part n fun w => { w with
          items := w.items ++ items, tail := w.tail + items.length
          stamps := w.stamps ++ List.replicate items.length (if q = 0 then (0, 0) else (q, gridId s g)) }
        serveQueue (items.length + w.parked.length + 1) s1 g.part n
    | .deq n f out d =>
      let la := out % 16
      match workQ? s g.part n with
      | none => s
      | some w =>
        match w.items with
        | item :: _ => takeItem (popWork s g.part n) gid f (out / 16) d la (Nat.max q (w.headTime (gridId s g))) item
        | [] =>
          let s1 := modWork s g.part n fun w => { w with parked := (w.parked.filter fun x => !(x == (gid, f))) ++ [(gid, f)] }
          s1.modGroup gid fun g => (g.reopen f).modFrag f fun x => { x with wait := some (.deq n d la (out / 16)) }
    | .deqt n f d p =>
      match workQ? s g.part n with
      | none => s
      | some w =>
        let mask := match g.frag? f with | none => 0 | some x => x.mask
        match if q < w.headTime (gridId s g) then [] else w.items with
        | item :: _ =>
          let s1 := popWork s g.part n
          { s1 with nextId := s1.nextId + 1 }.modGroup gid fun g =>
            ((List.range 4).foldl (fun (g : Group) i => g.setS (d + i) (item.getD i 0)) (g.claim d s.nextId).1).setP p.toNat mask 0xFFFFFFFF#32
        | [] => s.modGroup gid fun g => g.setP p.toNat mask 0

/-- Whether the unit that a group retires next has been counted in a quantum that has ended: a stop has made it perform again (17 R410). -/
def Logical.again (l : Logical) : Bool := decide (l.retired < l.start)

/-- An effect is performed at once, or held to the quantum's end in Ephemeris mode (17 R404).  An MSTAT that a stop has made perform again ends no
quantum: what comes before it has been released, and its place in the queue follows at once (17 R409, R410). -/
def emit (s : State) (gid : Nat) (e : Effect) : State :=
  match s.group? gid with
  | none => s
  | some g =>
    match g.logical with
    | none => perform s gid 0 e
    | some l =>
      if l.again && e.isStatus then perform s gid l.quantum e
      else s.setGroup { g with logical := some { l with held := l.held ++ [e] } }

end Sys2Proof.Machine
end

