-- ==== Sys2Proof/Machine/Conditions.lean ====
section
/-!
DEFINITION. The conditions that fragments wait for: batches, queues, grids, barrier phases and handles, and whether a parked group counts as
beyond every quantum (05 R141, R147; 10 R262, R274, R278; 12 R317; 14 R354; 17 R405).
-/

namespace Sys2Proof.Machine

/-! ### Engine queues (10 R262, R274, R278; 14 R354) -/

/-- The commands of a queue. -/
def cmdsOf {α : Type} (l : List (QItem α)) : List α := l.filterMap fun x => match x with | .cmd c => some c | .marker _ => none

/-- The tile handles that a matrix command names. -/
def MatCmd.handles (m : MatCmd) : List Nat :=
  match m.kind with
  | .mma => [m.ha, m.hb]
  | .mmas => [m.ha, m.hb]
  | .mmap => [m.hb]
  | .mtr => if m.px.bias then [m.ha, m.hb] else [m.ha]
  | _ => []

/-- Whether a FEED or a matrix command of a group on a handle is queued (10 R274). -/
def handleUsed (s : State) (gid t : Nat) : Bool :=
  (s.feeders.any fun q => (cmdsOf q.items).any fun f => f.group == gid && f.handle == t && !f.failed) ||
  (s.mats.any fun q => q.cmds.any fun m => m.group == gid && m.handles.contains t)

/-- The same, or one that is held to the quantum's end (17 R409). -/
def handleBusy (s : State) (g : Group) (t : Nat) : Bool :=
  let held := match g.logical with | none => [] | some l => l.held
  handleUsed s g.id t ||
  held.any fun e => match e with
    | .feed _ _ f => f.handle == t
    | .matrix _ m => m.handles.contains t
    | _ => false

/-- Whether a group has commands or feeds in the engines. -/
def engineBusy (s : State) (gid : Nat) : Bool :=
  (s.feeders.any fun q => (cmdsOf q.items).any fun f => f.group == gid) || (s.mats.any fun q => q.cmds.any fun m => m.group == gid)

/-- The next sequence number and the last one completed of a queue that QWAIT names: 0 to 15 copy queues, 16 to 19 feeders of the core. -/
def queueSeq (s : State) (g : Group) (q : Nat) : Option (Word × Word) :=
  if q < 16 then (copyQ? s g.part q).map fun x => (x.nextSeq, x.done)
  else if q < 20 then
    match s.coreOf g with
    | none => none
    | some k => (feeder? s k (q - 16)).map fun x => (x.nextSeq, x.done)
  else none

/-- Whether a command is complete: its number is not above the last of the completed run (10 R262, R266). -/
def seqDone (done n : Word) : Bool := done != 0 && seqLe n done

/-- The end of the run of completed numbers, and the completed ones beyond it, once those of a list are complete: numbers are given when a
command is issued, and in Ephemeris mode commands may enter their queue in another order (10 R262, 17 R407). -/
def advanceDone : Nat → Word → List Word → Word × List Word
  | 0, d, l => (d, l)
  | fuel + 1, d, l =>
    if l.contains (nextNumber d) then advanceDone fuel (nextNumber d) (l.filter fun n => n != nextNumber d) else (d, l)

/-- A feeder, or a copy queue, with one command more complete. -/
def Feeder.finish (q : Feeder) (n : Word) : Feeder :=
  let r := advanceDone (q.ahead.length + 1) q.done (q.ahead ++ [n])
  { q with done := r.1, ahead := r.2 }
def CopyQueue.finish (q : CopyQueue) (n : Word) : CopyQueue :=
  let r := advanceDone (q.ahead.length + 1) q.done (q.ahead ++ [n])
  { q with done := r.1, ahead := r.2 }

/-- The completed numbers beyond the run, of a queue that QWAIT names. -/
def queueAhead (s : State) (g : Group) (q : Nat) : List Word :=
  if q < 16 then ((copyQ? s g.part q).map CopyQueue.ahead).getD []
  else (((s.coreOf g).bind fun k => feeder? s k (q - 16)).map Feeder.ahead).getD []

/-- Whether a command of a queue that QWAIT names is complete (10 R278). -/
def queueComplete (s : State) (g : Group) (q : Nat) (n : Word) : Bool :=
  (queueSeq s g q).any (fun x => seqDone x.2 n) || (queueAhead s g q).contains n

/-- The commands issued up to the close of a batch: every earlier one when the list no longer tells. -/
def batchEnd (g : Group) (n : Word) : Nat :=
  match g.batches.find? fun b => b.1 == n with | some b => b.2 | none => 0

/-- Whether a batch and every earlier one of a group is complete: no command up to its close is held or queued (14 R349, R354). -/
def batchDone (s : State) (g : Group) (n : Word) : Bool :=
  let before := fun (m : MatCmd) => m.isCommand && m.group == g.id && decide (m.index < batchEnd g n)
  !(s.mats.any fun q => q.cmds.any before) &&
  !((match g.logical with | none => [] | some l => l.held).any fun e => match e with | .matrix _ m => before m | _ => false)

/-! ### Grids and barrier phases (05 R141; 12 R316, R317) -/

/-- The grids among some that the team's record does not show as retired. -/
def unretired (t : Team) (ns : List Word) : List Word := ns.filter fun n => !(t.retired.contains n)

/-- Whether a phase has passed a token: (phase - token) mod 2^32 in [1, 2^31) (12 R317). -/
def phasePassed (phase : Nat) (token : Word) : Bool :=
  let d := (phase + pow2 32 - token.toNat) % pow2 32
  decide (1 ≤ d) && decide (d < pow2 31)

/-- Whether a wait on a barrier word is over: the word is armed and its phase has passed the token (12 R316, R317). -/
def barPassed (s : State) (team word : Nat) (token : Word) : Bool :=
  isArmed s team word && phasePassed (barWord s team word).1 token

/-! ### The conditions of waits (05 R147) -/

/-- Whether the condition of a fragment's wait holds. -/
def waitMet (s : State) (g : Group) (w : Wait) : Bool :=
  match w with
  | .watch _ _ _ _ _ _ met _ => met
  | .arm word _ _ => isArmed s g.team word
  | .phase word t => barPassed s g.team word t
  | .deq q _ _ _ => match workQ? s g.part q with | none => false | some x => !x.items.isEmpty
  | .batch n => batchDone s g n
  | .queue q n => queueComplete s g q n
  | .grids ns => match s.team? g.team with | none => false | some t => (unretired t ns).isEmpty
  | .stall op _ _ _ => op.isEmpty
  | .queueFull .. => false
  | .rebind t => !(handleBusy s g t)

/-- Whether a group waits for the release of its quantum (17 R403). -/
def Group.ended (g : Group) : Bool := match g.logical with | none => false | some l => l.ended

/-- Parked, and no condition of its fragments holds: in Ephemeris mode such a group counts as beyond every quantum (17 R405). -/
def parkedUnmet (s : State) (g : Group) : Bool :=
  g.parked && !g.ended && (g.frags.all fun f => !(f.stalled)) && g.frags.all fun f => f.wait.all fun w => !(waitMet s g w)

/-- The groups of a grid's running phase that have not exited. -/
def phaseGroups (s : State) (grid : Nat) : List Group := s.groups.filter fun g => s.inGrid grid g && !g.exited

/-- Whether it is a group's turn in logical order: every other group of its phase has exited, is parked, is beyond its quantum, or comes
after it in the same quantum.  What is judged or numbered then follows the order of the releases (17 R404 to R407); a unit that must wait
for it only issues later. -/
def logicalTurn (s : State) (g : Group) : Bool :=
  match s.ephGrid g, g.logical with
  | some d, some l => (phaseGroups s d.id).all fun h => h.id == g.id || parkedUnmet s h || h.logical.all fun k =>
      decide (l.quantum < k.quantum) || (k.quantum == l.quantum && decide (s.gridWideId g < s.gridWideId h))
  | _, _ => true

end Sys2Proof.Machine
end

