-- ==== Sys2Proof/Machine/Unit.lean ====
section
/-!
DEFINITION. The runner of an instruction unit: the order of detection (03 R85), lookahead windows and interlocks (03 R81, R82), the
region that an instruction ends (06 R165, R167), and quanta (17 R403).
-/

namespace Sys2Proof.Machine

/-- What a unit is issued with: the state, its group and fragment, and the address of the next unit. -/
structure Ctx where
  s    : State
  g    : Group
  f    : Frag
  next : Dword

/-- What the order of detection needs to know of a unit (03 R85). -/
structure UnitSpec where
  /-- Words of the unit, prefix words included (03 R75). -/
  words     : Nat := 1
  /-- Absolute vector registers and scalar registers that it touches. -/
  vs        : List Nat := []
  ss        : List Nat := []
  /-- Step 3: a privileged operation that the group may not issue. -/
  priv      : Bool := false
  /-- Step 5: a bound that an accumulator, a handle, a granule or the window base breaks. -/
  regx      : Bool := false
  /-- Step 6: FMTSLOT or RELWORD with the address reported. -/
  slot      : Option (Byte × Dword) := none
  /-- Step 7: the active lanes disagree. -/
  unif      : Bool := false
  /-- It traps ILLEGAL in method code (11 R292), or in a handler (16 R386). -/
  noMethod  : Bool := false
  noHandler : Bool := false
  /-- Streams whose earlier accesses it orders before its own effect: it is a release, or a command (10 R266, 13 R327). -/
  rel       : BitVec 16 := 0
  /-- It is a release at fabric domain or system scope (13 R331). -/
  far       : Bool := false
  /-- It ends a yield-free path (03 R82), the region (06 R167), and the quantum (17 R403). -/
  path      : Bool := false
  region    : Bool := false
  quantum   : Bool := false

/-- What the execution of a unit comes to. -/
inductive UnitRes where
  /-- It took effect; the next unit follows, or the unit at an address. -/
  | done (s : State)
  | jump (s : State) (pc : Dword)
  /-- It took effect and the fragment splits: the taken lanes go to the address (06 R156). -/
  | fork (s : State) (taken : Word) (pc : Dword)
  /-- It took effect and moved its group itself: EXIT, TRET, CRET and CABORT. -/
  | gone (s : State)
  /-- It traps: without effect, or after its effect (16 R379). -/
  | trap (cause : Byte) (mask : Word) (addr : Dword)
  /-- A no-effect trap whose report has changed the log. -/
  | fail (s : State) (cause : Byte) (mask : Word) (addr : Dword)
  | post (s : State) (cause : Byte) (mask : Word) (addr : Dword)
  /-- A replayable fault: faulting addresses with kind and access, and the addresses by lane (08 R221). -/
  | stall (todo : List (Dword × Byte × Byte)) (lanes : List (Nat × Dword))
  /-- It is not ready: it waits for a result, a queue or an engine (05 R146). -/
  | wait
  /-- A store that opens the next quantum (17 R403). -/
  | cut

/-- What the checks before execution come to. -/
inductive Pre where
  | go | hold
  | trap (cause : Byte) (addr : Dword)
  deriving DecidableEq, Repr

/-- Whether a unit touches a register. -/
def UnitSpec.touches (u : UnitSpec) (r : RegRef) : Bool :=
  match r with | .v n => u.vs.contains n | .s n => u.ss.contains n

/-- Whether a unit touches some register of a result. -/
def UnitSpec.meets (u : UnitSpec) (o : Out) : Bool := o.regs.any u.touches

/-- Whether a unit waits before it issues: a path end waits for every result of its fragment, any unit for a result whose window is
used up, for an interlocked result that it touches, and for a result of another fragment that it touches (03 R81, R82). -/
def mustWait (c : Ctx) (u : UnitSpec) : Bool :=
  (u.path && c.f.outs.any fun o => !o.landed) ||
  (c.f.outs.any fun o => !o.landed && (if o.interlock then u.meets o else o.window == 0)) ||
  (c.g.frags.any fun f => !(f.id == c.f.id) && f.outs.any fun o =>
    !o.landed && u.meets o && !(c.f.outs.any fun x => x.id == o.id))

/-- A touch inside an open window of the fragment (03 R81). -/
def inWindow (c : Ctx) (u : UnitSpec) : Bool :=
  !u.path && c.f.outs.any fun o => !o.interlock && decide (0 < o.window) && u.meets o

/-- The streams that a request belongs to: its own, and those that fences have joined to it (13 R335). -/
def Request.streams (r : Request) : BitVec 16 := (1#16 <<< r.str.toNat) ||| r.joined

/-- The streams of a result: its own, and those that a fence has joined to it (13 R335). -/
def Out.streams (o : Out) : BitVec 16 := (1#16 <<< o.str.toNat) ||| o.joined

/-- Whether a store, a RED or an ATOM of some streams in tier 3 is still to be acknowledged by its home (13 R331, 19 R426). -/
def farOpen (g : Group) (mask : BitVec 16) : Bool :=
  (g.wire.any fun x => mask.getLsbD x.1.toNat) ||
  g.frags.any fun f => f.outs.any fun o => o.kind == .atom && !o.flits.isEmpty && mask &&& o.streams != 0

/-- A release waits until the group's atomics and the commits of its PADDCs in its streams have been performed: they precede it (13 R327, R335;
18 R415); at fabric domain or system scope, until the homes of its tier-3 stores and atomics have acknowledged them too (13 R331).  In Ephemeris mode the order of the releases of quanta
takes this place (17 R404). -/
def releaseHolds (c : Ctx) (mask : BitVec 16) (far : Bool) : Bool :=
  mask != 0 && c.g.logical.isNone &&
  (((openAtomics c.s c.g.id).any fun r => mask &&& r.streams != 0) || (c.g.openCommits.any fun o => mask.getLsbD o.str.toNat) || (far && farOpen c.g mask))

/-- Steps 3 to 7 of the order of detection, and the uses that method code and handlers are denied (03 R85, 11 R292, 16 R386). -/
def preCheck (c : Ctx) (u : UnitSpec) : Pre :=
  if mustWait c u then .hold
  else if u.priv then .trap causePriv 0
  else if inWindow c u then .trap causeLahz 0
  else if u.regx || u.vs.any fun n => decide (8 * c.g.granules ≤ n) then .trap causeRegx 0
  else match u.slot with
    | some (k, a) => .trap k a
    | none =>
      if u.unif then .trap causeUnif 0
      else if u.noMethod && c.g.role != .ordinary then .trap causeIllegal 0
      else if u.noHandler && c.g.handler.isSome then .trap causeIllegal 0
      else if releaseHolds c u.rel u.far then .hold
      else .go

/-- The windows of a fragment after one more unit: those open before the unit lose one (03 R81). -/
def tickWindows (before : Nat) (outs : List Out) : List Out :=
  (outs.map fun o => if o.id < before && !o.interlock then { o with window := o.window - 1 } else o).filter fun o =>
    !(o.landed && (o.window == 0 || o.interlock))

/-- The quantum Q of a group's grid (17 R399). -/
def quantumOf (s : State) (g : Group) : Nat := match s.gridOf g with | none => 0 | some d => d.record.quantum.toNat

/-- One more retired unit: the quantum ends at the Q-th of it, or where the instruction ends it (17 R403).  A unit that a stop has made
perform again was counted in a quantum that has ended, and ends none (17 R410). -/
def countUnit (q : Nat) (ends : Bool) (pc : Dword) (fid : Nat) (l : Logical) : Logical :=
  { l with retired := l.retired + 1, ended := decide (l.start < l.retired + 1) && (ends || decide (l.start + q ≤ l.retired + 1)),
           endPc := pc, endFrag := fid, endAt := l.retired + 1 }

/-- Retired units of a group (17 R403). -/
def retiredOf (l : Option Logical) : Nat := match l with | none => 0 | some x => x.retired

/-- A region that the unit began starts after it: the retired count at its entry includes the unit (06 R165, R168; 17 R410). -/
def countEntry (g : Group) (fid old : Nat) : Group :=
  { g with frags := g.frags.map fun f =>
      if f.id = fid then (if f.region.count.toNat = old then f else { f with region := { f.region with units := retiredOf g.logical } }) else f }

/-- The fragment at the end of a unit that took effect: its windows count down, or close at the end of a yield-free path, and it goes to
`pc` (03 R81, R82). -/
def endFragment (c : Ctx) (u : UnitSpec) (s : State) (f : Frag) (pc : Dword) : Frag :=
  let outs := if u.path then f.outs.filter (fun o => !(decide (o.id < c.s.nextId))) else tickWindows c.s.nextId f.outs
  { f with pc := pc, last := c.f.pc, outs := outs, held := false, counted := false, ready := s.tick, promoted := none,
           prior := none }

/-- Its group: a region that the unit ends gives way to the next, unless the unit parks before it takes effect, and the unit counts (06 R165,
R167; 17 R403).  In Ephemeris mode the effect comes with the release, and the region that ended is kept until then. -/
def endGroup (c : Ctx) (u : UnitSpec) (s : State) (g : Group) (f : Frag) (pc : Dword) : Group :=
  let f0 := endFragment c u s f pc
  let f1 := if g.logical.isSome then { f0 with prior := some f.region } else f0
  let g1 := if u.region && !f.unperformed then newRegion (g.setFrag f1) f1 pc else g.setFrag f1
  let l := if c.f.counted then g.logical else g.logical.map (countUnit (quantumOf s g) u.quantum c.f.pc c.f.id)
  countEntry { g1 with logical := l } c.f.id c.f.region.count.toNat

/-- One more unit issued, in the snapshot register of the group's quadrant (20 R454). -/
def countIssue (s : State) (g : Group) : State := match s.coreOf g with | some k => s.count 2 k g.quadrant 1 | none => s

/-- The end of a unit that took effect (03 R81, 06 R165, R167; 17 R403). -/
def finish (c : Ctx) (u : UnitSpec) (s : State) (pc : Dword) : State :=
  match s.group? c.g.id with
  | none => s
  | some g =>
    match g.frag? c.f.id with
    | none => s
    | some f => countIssue (s.setGroup (endGroup c u s g f pc)) (endGroup c u s g f pc)

/-- The split of a fragment at a divergent branch: `next` is where the fragment stands, the taken lanes go to `pc` (06 R156).  Where the branch ended
a quantum, the part that holds the lowest lane stands for the fragment that ended it (17 R401; DESIGN CHOICE, notes/assumptions/106.md). -/
def splitFrag (s : State) (gid fid : Nat) (taken : Word) (pc : Dword) : State :=
  match s.group? gid with
  | none => s
  | some g =>
    match g.frag? fid with
    | none => s
    | some f =>
      let (a, s1) := s.fresh
      let (b, s2) := s1.fresh
      let (sp, s3) := s2.fresh
      let splits := match f.join with | some j => g.splits ++ [{ id := sp, join := j, parent := f.split }] | none => g.splits
      let sid := match f.join with | some _ => sp | none => f.split
      let ft : Frag := { f with id := a, mask := taken, pc := pc, join := none, split := sid, pending := [] }
      let fn : Frag := { f with id := b, mask := f.mask &&& ~~~taken, join := none, split := sid, pending := f.pending }
      let low := if lowestLane taken < lowestLane fn.mask then a else b
      s3.setGroup { g with
        frags := (g.frags.filter fun x => !(x.id == fid)) ++ [ft, fn], splits := splits
        logical := g.logical.map fun l => if l.endFrag = fid then { l with endFrag := low } else l }

/-- A no-effect trap of the unit that issues (16 R379). -/
def unitTrap (c : Ctx) (s : State) (cause : Byte) (mask : Word) (addr : Dword) : State :=
  takeTrap (if c.f.counted then s.modGroup c.g.id fun g => g.modFrag c.f.id fun f => { f with counted := false } else s) c.g.id c.f.id { cause := cause, mask := mask, addr := addr, pc := c.f.pc, resume := c.f.pc, noEffect := true }

/-- The fragment is not ready: it is passed over until something changes (05 R145). -/
def holdFrag (c : Ctx) : State := c.s.setGroup (c.g.setFrag { c.f with held := true, ready := c.s.tick, promoted := none })

/-- What a unit's result does to the machine. -/
def endUnit (c : Ctx) (u : UnitSpec) : UnitRes → State
  | .done s => finish c u s c.next
  | .jump s pc => finish c u s pc
  | .fork s taken pc => splitFrag (finish c u s c.next) c.g.id c.f.id taken pc
  | .gone s => s
  | .trap cause mask addr => unitTrap c c.s cause mask addr
  | .fail s cause mask addr => unitTrap c s cause mask addr
  | .post s cause mask addr =>
    takeTrap (finish c u s c.next) c.g.id c.f.id
      { cause := cause, mask := mask, addr := addr, pc := c.f.pc, resume := 0, noEffect := false }
  | .stall todo lanes => stallFrag c.s c.g.id c.f.id (regionsOf todo) lanes false
  | .wait => holdFrag c
  | .cut => c.s.setGroup { c.g with logical := c.g.logical.map fun l => { l with ended := true, endAt := Nat.max l.start l.retired } }

/-- The checks of a unit and then its execution (03 R85). -/
def issueUnit (c : Ctx) (u : UnitSpec) (body : Ctx → UnitRes) : State :=
  match preCheck c u with
  | .hold => holdFrag c
  | .trap cause addr => unitTrap c c.s cause c.f.mask addr
  | .go => endUnit c u (body c)

/-- The context of the fragment that issues. -/
def ctx? (s : State) : Option Ctx :=
  match s.cur with
  | none => none
  | some (gid, fid) =>
    match s.group? gid with
    | none => none
    | some g =>
      match g.frag? fid with
      | none => none
      | some f => some { s := s, g := g, f := f, next := f.pc }

/-- Runs one unit for the fragment that issues. -/
def runUnit (s : State) (spec : Ctx → UnitSpec) (body : Ctx → UnitRes) : Host.Outcome State Fault Refusal :=
  match ctx? s with
  | none => .fault .noIssuer
  | some c =>
    let u := spec c
    .next (issueUnit { c with next := c.f.pc + BitVec.ofNat 64 (4 * u.words) } u body)

/-- A unit whose whole effect is a new state of its group. -/
def doneG (c : Ctx) (g : Group) : UnitRes := .done (c.s.setGroup g)

end Sys2Proof.Machine
end

