-- ==== Sys2Proof/Machine/Operands.lean ====
section
/-!
DEFINITION. Operand forms: prefix words, active lanes, the registers that a field names, per-lane addresses, the checks of
the lanes of a memory access, and the load and store that every memory instruction shares.
-/

namespace Sys2Proof.Machine

/-! ### Prefix words and active lanes (03 R75 to R79) -/

/-- The fields of a MODW, or their defaults. -/
def mw (px : Option Modw) : Modw := px.getD {}

/-- The stream of MODW as a mask of streams (13 R335). -/
def streamMask (px : Option Modw) : BitVec 16 := 1#16 <<< (mw px).str.toNat

/-- Whether the scope of MODW is fabric domain or system (13 R324). -/
def farScope (px : Option Modw) : Bool := decide (6 ≤ (mw px).scope.toNat)

/-- Words of a unit with an optional prefix. -/
def unitWords {α : Type} (px : Option α) : Nat := if px.isSome then 2 else 1

/-- Words of a unit whose immediate may need an IMMX, beside an optional prefix (03 R79). -/
def immWords {α : Type} (px : Option α) (i : Imm11) : Nat := unitWords px + (match i with | .short _ => 0 | .long _ => 1)

/-- Active lanes: the fragment mask and the guard, which may be inverted (03 R77). -/
def active (c : Ctx) (m : Modw) : Word :=
  c.f.mask &&& (c.g.getP m.guard.toNat ^^^ (if m.gneg then 0xFFFFFFFF#32 else 0))

/-- The active lanes in ascending order. -/
def activeLanes (c : Ctx) (px : Option Modw) : List Nat := lanesOf (active c (mw px))

/-! ### Registers (03 R61, R62) -/

/-- Absolute vector register of a field. -/
def vr (c : Ctx) (x : BitVec 7) : Nat := c.g.abs x

/-- `n` consecutive vector registers from a field. -/
def vrs (c : Ctx) (x : BitVec 7) (n : Nat) : List Nat := (List.range n).map fun k => vr c x + k

/-- The even register of a scalar pair field. -/
def pairOf (a : BitVec 5) : Nat := 2 * a.toNat

/-- Both registers of a scalar pair. -/
def pairRegs (a : BitVec 5) : List Nat := [pairOf a, pairOf a + 1]

/-- First register of a scalar quad field. -/
def quadOf (d : BitVec 4) : Nat := 4 * d.toNat

/-- The four registers of a scalar quad. -/
def quadRegs (d : BitVec 4) : List Nat := [quadOf d, quadOf d + 1, quadOf d + 2, quadOf d + 3]

/-- Vector register at a lane. -/
def vget (c : Ctx) (x : BitVec 7) (i : Nat) : Word := c.g.getV (vr c x) i

/-- 64-bit element of a vector pair at a lane. -/
def vget64 (c : Ctx) (x : BitVec 7) (i : Nat) : Dword := c.g.getV64 (vr c x) i

/-! ### Addresses (08 R225, R230) -/

/-- Scalars that an LD or ST address touches. -/
def memScalars (am : BitVec 1) (a : BitVec 6) : List Nat := if am = 0 then [a.toNat, a.toNat + 1] else []

/-- Vector registers that an LD or ST address touches. -/
def memVectors (c : Ctx) (am : BitVec 1) (b : BitVec 7) : List Nat := if am = 0 then [vr c b] else vrs c b 2

/-- The address of a lane of LD or ST (08 R225). -/
def laneAddr (c : Ctx) (am : BitVec 1) (a : BitVec 6) (b : BitVec 7) (i : Nat) : Dword :=
  if am = 0 then c.g.getPair a.toNat + (vget c b i).signExtend 64 else vget64 c b i

/-- The window address of a lane of LDS or STS (08 R230). -/
def sliceAddr (c : Ctx) (a : BitVec 6) (b : BitVec 7) (i : Nat) : Dword :=
  0xFFFE000000000000#64 + (c.g.getS a.toNat + vget c b i).setWidth 64

/-! ### The checks of the lanes of an access (08 R220) -/

/-- The team whose slice a window address means: none for a method (11 R292, R293). -/
def sliceTeam (g : Group) : Option Nat := match g.role with | .ordinary => some g.team | .service .. => none

/-- The access byte of a fault record (08 R221). -/
def accessByte (a : Access) (engine : Bool) : Byte :=
  (match a with | .load => 0 | .store => 1 | .update => 1 | .fetch => 2) ||| (if engine then 4 else 0)

/-- What the checks of an access come to. -/
inductive Checked where
  | bad (r : UnitRes)
  /-- Location of each lane, after the walker's marks. -/
  | ok (s : State) (l : List (Nat × Dword × Loc))

/-- The mask and the first address of the lanes that fail a check. -/
def trapLanes (cause : Byte) (l : List (Nat × Dword)) : UnitRes :=
  .trap cause (maskOf (l.map Prod.fst)) ((l.head?.map Prod.snd).getD 0)

/-- Whether a translated lane breaks protection (08 R218). -/
def offends (t : Trans) : Bool := match t with | .access => true | _ => false

/-- Whether another device that the access reaches refuses it (19 R431); one that cannot be reached does not (19 R429, R437). -/
def refused (s : State) (part : Nat) (t : Trans) : Bool :=
  match t with | .loc l _ _ => reachable s part l && refusedRemote l | _ => false

/-- Whether a translated lane names a tier that Ephemeris mode forbids (17 R409). -/
def farTier (t : Trans) : Bool := match t with | .loc _ n _ => n == 1 || n == 3 | _ => false

/-- The checks of lanes (lane, address, bytes) in the order of R220: alignment, then canonical form, bound and protection, then
presence; in Ephemeris mode the tier (17 R409); and then what another device refuses (19 R431). -/
def checkLanes (c : Ctx) (a : Access) (ls : List (Nat × Dword × Nat)) : Checked :=
  let mis := ls.filter fun x => !(x.2.1.toNat % x.2.2 == 0)
  if mis ≠ [] then .bad (trapLanes causeMisalign (mis.map fun x => (x.1, x.2.1)))
  else
    let r := c.s.rightsOf c.g
    let tr := ls.mapIdx fun n x => (x.1, x.2.1, translate c.s r (sliceTeam c.g) a x.2.1 n)
    let acc := tr.filter fun x => offends x.2.2
    if acc ≠ [] then .bad (trapLanes causeAccess (acc.map fun x => (x.1, x.2.1)))
    else
      let engine := c.g.role != .ordinary
      let todo := tr.filterMap fun x => match x.2.2 with | .absent k => some (x.2.1, k, accessByte a engine) | _ => none
      if todo ≠ [] then .bad (.stall todo (tr.map fun x => (x.1, x.2.1)))
      else if (c.s.ephGrid c.g).isSome && tr.any fun x => farTier x.2.2 then .bad (.trap causeEphviol c.f.mask 0)
      else if tr.any fun x => refused c.s c.g.part x.2.2 then
        .bad (trapLanes causeAccess ((tr.filter fun x => refused c.s c.g.part x.2.2).map fun x => (x.1, x.2.1)))
      else if (ls.zip tr).any fun x => match x.2.2.2 with | .loc l _ _ => meetsAtomic c.s c.g.id l x.1.2.2 | _ => false then .bad .wait
      else
        let write := match a with | .store => true | .update => true | _ => false
        .ok (useLeaves c.s c.g.part (tr.map fun x => x.2.2) write)
          (tr.filterMap fun x => match x.2.2 with | .loc l _ _ => some (x.1, x.2.1, l) | _ => none)

/-- The checks of an access that a fragment makes as a whole: a trap or a stall concerns every lane of a mask. -/
def forLanes (mask : Word) : Checked → Checked
  | .bad (.trap cause _ x) => .bad (.trap cause mask x)
  | .bad (.stall todo l) => .bad (.stall todo ((lanesOf mask).flatMap fun i => l.map fun x => (i, x.2)))
  | r => r

/-- The 128-byte line of a location in tier 3 (08 R215). -/
def lineOf (l : Loc) : Option Nat := match l with | .mem k => if keyTier k = 3 then some (k / 128) else none | .slice .. => none

/-- One request for each 128-byte line that lanes of an access fall into, which is one flit: each lane with the flit that it shares with the
others of its line (08 R215, 19 R426); a lane of 32 means every lane of the instruction. -/
def sendFlits (s : State) (part : Nat) (ls : List (Nat × Loc)) : State × List (Nat × BitVec 12 × Nat) :=
  ((ls.filterMap fun x => lineOf x.2).eraseDups).foldl (fun st n =>
    let mine := ls.filter fun x => lineOf x.2 == some n
    match mine with
    | [] => st
    | (_, l) :: _ =>
      let r := sendFlit st.1 part l
      (r.1, st.2 ++ r.2.flatMap fun f => mine.map fun x => (f.1, f.2, x.1))) (s, [])

/-- Logs the failed lanes of an access, one entry for each (08 R223, 20 R448). -/
def logLanes (c : Ctx) (s : State) (l : List (Nat × Dword × Loc)) : State :=
  l.foldl (fun s x => logAccess s c.g.part x.2.2 x.2.1 c.f.pc (requesterOf c.s c.g)) s

/-- Adds an outstanding result to the fragment that issues. -/
def addOut (c : Ctx) (s : State) (o : Out) : State :=
  s.modGroup c.g.id fun g => g.modFrag c.f.id fun f => { f with outs := f.outs ++ [o] }

/-- The post-effect MEMERR of a load (08 R223). -/
def memerrTrap (c : Ctx) (bad : List (Nat × Dword)) : Option TrapInfo :=
  if bad = [] then none
  else some { cause := causeMemerr, mask := maskOf (bad.map Prod.fst), addr := (bad.head?.map Prod.snd).getD 0, pc := c.f.pc,
              resume := 0, noEffect := false }

/-- A load of every active lane (08 R220 to R226): `words` turns the bytes of a lane into the words of registers `regs`.  With no
active lane it has no effect. -/
def loadLanes (c : Ctx) (px : Option Modw) (la : BitVec 4) (regs : List Nat) (size : Nat) (words : Nat → List Word)
    (addr : Nat → Dword) : UnitRes :=
  let ls := activeLanes c px
  if ls = [] then .done c.s
  else match checkLanes c .load (ls.map fun i => (i, addr i, size)) with
    | .bad r => r
    | .ok s l =>
      let bad := l.filter fun x => (viewOf c.s c.g).broken s c.g.part x.2.2 size
      let s1 := logLanes c s bad
      let (id, s2) := s1.fresh
      let (s3, fl) := sendFlits s2 c.g.part (l.map fun x => (x.1, x.2.2))
      let v := viewOf c.s c.g
      let ws := l.flatMap fun x =>
        (regs.zip (words (natOfBytes (readLocs s v x.2.2 size)))).map fun rw => ({ reg := .v rw.1, lane := x.1, val := rw.2 } : RegWrite)
      let o : Out := { newOut id .load (regs.map RegRef.v) la.toNat c.f.pc with
        str := (mw px).str, writes := ws, trap := memerrTrap c (bad.map fun x => (x.1, x.2.1)), addrs := l.map fun x => (x.1, x.2.1),
        flits := fl }
      .done (addOut c s3 o)

/-- The 16-byte words that pieces touch. -/
def wordsTouched (ps : List Piece) : List Loc :=
  (ps.map fun p => match p.loc with | .mem k => Loc.mem (k / 16) | .slice t o => .slice t (o / 16)).eraseDups

/-- The pieces of the stores that a group holds. -/
def heldPieces (held : List Effect) : List Piece :=
  held.flatMap fun e => match e with | .store ps .. => ps | _ => []

/-- Whether a store of pieces needs a 513th word of the commit buffer (17 R403). -/
def overflowsCommit (g : Group) (ps : List Piece) : Bool :=
  match g.logical with
  | none => false
  | some l => l.held ≠ [] && decide (512 < (wordsTouched (heldPieces l.held ++ ps)).length)

/-- Whether a store of pieces needs a 257th word of a batch's store buffer (11 R293). -/
def overflowsBuffer (s : State) (g : Group) (ps : List Piece) : Bool :=
  match batchOf s g with
  | none => false
  | some b =>
    let old := (b.buffer.map fun x => Loc.mem (x.1 / 32)).eraseDups
    decide (256 < (old ++ wordsTouched ps).eraseDups.length)

/-- The tier-3 accesses of a store leave for their homes; those that are not acknowledged yet are kept with its stream (13 R331, 19 R426). -/
def sendStores (c : Ctx) (s : State) (str : BitVec 4) (ps : List Piece) : State :=
  let r := sendFlits s c.g.part (ps.mapIdx fun i p => (i, p.loc))
  let addr := fun (i : Nat) => (ps[i]?.map Piece.addr).getD 0
  if r.2.isEmpty then r.1
  else r.1.modGroup c.g.id fun g => { g with wire := g.wire ++ r.2.map fun x => (str, x.1, x.2.1, addr x.2.2) }

/-- A store of pieces that passed their checks: held, buffered or performed (08 R227, 11 R293, 17 R404). -/
def storePieces (c : Ctx) (s : State) (str : BitVec 4) (ps : List Piece) : UnitRes :=
  if overflowsCommit c.g ps then .cut
  else match c.g.role with
    | .service h sg =>
      if overflowsBuffer s c.g ps then .gone (failBatch s h sg 0xF1 none) else .done (emit s c.g.id (.store ps str c.f.pc c.f.mask))
    | .ordinary => .done (emit (sendStores c s str ps) c.g.id (.store ps str c.f.pc c.f.mask))

/-- A store of every active lane, in ascending lane order (08 R227). -/
def storeLanes (c : Ctx) (px : Option Modw) (size : Nat) (data : Nat → Nat) (addr : Nat → Dword) : UnitRes :=
  let ls := activeLanes c px
  if ls = [] then .done c.s
  else match checkLanes c .store (ls.map fun i => (i, addr i, size)) with
    | .bad r => r
    | .ok s l =>
      storePieces c s (mw px).str (l.map fun x => { loc := x.2.2, addr := x.2.1, bytes := bytesOfNat size (data x.1), mask := [] })

/-- A narrow store of some streams that met an error, for the release that reports it: MEMERR, once, in the fragment that issued the store,
which after a split or a fusion is the one that holds its lowest lane (08 R224). -/
def narrowTrap (c : Ctx) (streams : BitVec 4 → Bool) : Option UnitRes :=
  let mine := fun (x : BitVec 4 × Word × Dword) => streams x.1 && c.f.mask.getLsbD (lowestLane x.2.1)
  match c.g.narrow.find? mine with
  | none => none
  | some x =>
    let g1 : Group := { c.g with narrow := c.g.narrow.filter fun y => !(mine y) }
    some (.fail (c.s.setGroup g1) causeMemerr c.f.mask x.2.2)

/-- Reads `n` bytes at an address as a unit that takes effect only after the read: a record or a command (08 R220, 16 R379 MEMERR).  Method code reads
them like a load, from its store buffer where it has written them; the spec says so of the copy's own reads alone, which see memory (11 R293, R294;
DESIGN CHOICE, notes/assumptions/106.md). -/
def readRecord (c : Ctx) (a : Dword) (n align : Nat) : Except UnitRes (State × List Byte) :=
  if a.toNat % align ≠ 0 then .error (.trap causeMisalign c.f.mask a)
  else match forLanes c.f.mask (checkLanes c .load ((List.range (n / 16)).map fun k => (k, a + BitVec.ofNat 64 (16 * k), 16))) with
    | .bad r => .error r
    | .ok s l =>
      match l.find? fun x => (viewOf c.s c.g).broken s c.g.part x.2.2 16 with
      | some x => .error (.fail (logLanes c s [x]) causeMemerr c.f.mask x.2.1)
      | none => .ok (s, l.flatMap fun x => readLocs s (viewOf c.s c.g) x.2.2 16)

end Sys2Proof.Machine
end

