-- ==== Sys2Proof/Machine/Flags.lean ====
section
/-!
DEFINITION. What the machine computes for its predicates and modifiers: relations, float relations, class words, the operand
modifiers of MODW and the result tails of R77.
-/

namespace Sys2Proof.Machine

/-- The relation of R176 between two words: codes 0 to 9. -/
def wordRel (r : BitVec 4) (x y : Word) : Bool := relHolds r.toNat 32 x.toNat y.toNat

/-- The lanes of a list where a test holds, as a word of lanes. -/
def laneWord (ls : List Nat) (t : Nat → Bool) : Word := maskOf (ls.filter t)

/-- Writes a test of the lane to the listed lanes of a predicate; p0 ignores it (03 R59, R60). -/
def setPred (g : Group) (d : BitVec 4) (ls : List Nat) (t : Nat → Bool) : Group := g.setP d.toNat (maskOf ls) (laneWord ls t)

/-! ### Operand modifiers (03 R77) -/

/-- An integer operand after the absolute value and negation, exactly. -/
def modInt (abs neg : Bool) (x : Int) : Int :=
  let a := if abs then (x.natAbs : Int) else x
  if neg then -a else a

/-- A floating-point operand's code after the modifiers, which act on the sign bit only. -/
def modCode (bits : Nat) (abs neg : Bool) (x : Nat) : Nat :=
  let s := pow2 (bits - 1)
  let a := if abs then x % s else x % pow2 bits
  if neg then (if a < s then a + s else a - s) else a

/-- Operand a of a MODW, as a code. -/
def modA (f : FloatFmt) (m : Modw) (x : Nat) : Nat := modCode f.bits m.absa m.nega x

/-- Operand b of a MODW, as a code. -/
def modB (f : FloatFmt) (m : Modw) (x : Nat) : Nat := modCode f.bits m.absb m.negb x

/-- The floating-point tail of R77 with the scale 2^psc of a MODW. -/
def tailFloat (f : FloatFmt) (m : Modw) (x : Num) : Nat := floatTail f m.rnd m.sat m.clamp (x.scale m.psc.toInt)

/-- The integer tail of R77 with the fields of a MODW. -/
def tailInt (signed : Bool) (w : Nat) (m : Modw) (x : Int) : Nat := intTail signed w m.psc.toInt m.rnd m.sat x

/-- The relations of VFSETP (07 R198). -/
def floatRel (f : FloatFmt) (r : BitVec 3) (x y : Nat) : Bool :=
  let a := f.decode x
  let b := f.decode y
  let un := a.isNan || b.isNan
  match r.toNat with
  | 0 => Num.eq a b
  | 1 => !(Num.eq a b)
  | 2 => !un && Num.lt a b
  | 3 => !un && !(Num.lt b a)
  | 4 => !un && Num.lt b a
  | 5 => !un && !(Num.lt a b)
  | 6 => un
  | _ => !un

/-- The one-hot class word of a code (07 R199). -/
def classWord (f : FloatFmt) (code : Nat) : Word :=
  let x := code % pow2 f.bits
  let neg := decide (pow2 (f.bits - 1) ≤ x)
  let mag := x % pow2 (f.bits - 1)
  let mant := mag % pow2 f.mbits
  let e := mag / pow2 f.mbits
  let top := pow2 (f.bits - 1 - f.mbits) - 1
  let bit : Nat :=
    if e = top then
      if mant = 0 then (if neg then 0 else 7) else if pow2 (f.mbits - 1) ≤ mant then 9 else 8
    else if e = 0 then
      if mant = 0 then (if neg then 3 else 4) else (if neg then 2 else 5)
    else (if neg then 1 else 6)
  BitVec.ofNat 32 (pow2 bit)

/-- Leading zero bits of a word, 32 for 0 (06 R175, 07 R189). -/
def leadingZeros (x : Word) : Word := BitVec.ofNat 32 (32 - bitLen x.toNat)

/-- The bits of a word in reverse order (06 R175, 07 R189). -/
def reverseBits (x : Word) : Word := maskOf (lanes.filter fun i => x.getLsbD (31 - i))

/-- The functions of SALU, by code (06 R173). -/
def salu (f : Nat) (x y : Word) : Word :=
  match f with
  | 0 => x + y
  | 1 => x - y
  | 2 => x * y
  | 3 => BitVec.ofNat 32 ((x.toNat * y.toNat) / pow2 32)
  | 4 => BitVec.ofInt 32 ((x.toInt * y.toInt) / ((pow2 32 : Nat) : Int))
  | 5 => x &&& y
  | 6 => x ||| y
  | 7 => x ^^^ y
  | 8 => if 32 ≤ y.toNat then 0 else x <<< y.toNat
  | 9 => if 32 ≤ y.toNat then 0 else x >>> y.toNat
  | 10 => if 32 ≤ y.toNat then (if x.msb then 0xFFFFFFFF#32 else 0) else x.sshiftRight y.toNat
  | 11 => if x.toInt ≤ y.toInt then x else y
  | 12 => if x.toInt ≤ y.toInt then y else x
  | 13 => if x.toNat ≤ y.toNat then x else y
  | 14 => if x.toNat ≤ y.toNat then y else x
  | _ => x &&& ~~~y

end Sys2Proof.Machine
end

