-- ==== Sys2Proof/Machine/Objects.lean ====
section
/-!
DEFINITION. Requests to combiner homes: ATOM and RED, OBJCALL and OBJPOST, OBJBIND and OBJUNBIND, and the ends of a method,
CRET and CABORT (11 R280 to R306, 12 R308 to R313).
-/

namespace Sys2Proof.Machine

/-! ### Requests (11 R280, R285) -/

/-- The hash of an object's base (11 R280). -/
def homeHash (base : Nat) : Nat :=
  let x := bitsOf base 56 6
  (x % pow2 16) ^^^ (x / pow2 16 % pow2 16) ^^^ (x / pow2 32 % pow2 16) ^^^ (x / pow2 48 % 8)

/-- The home of an object's base in a partition, by its device-wide cluster number: the partition-relative number that the hash gives counts the
clusters in ascending order (01 R10; 11 R280). -/
def homeOf (s : State) (part : Nat) (base : Dword) : Nat :=
  match s.part? part with
  | none => 0
  | some p => (atRank p.clusters (homeHash base.toNat % p.clusters.length)).getD 0

/-- The source id of a lane of a group: its kind, the requester and the lane (11 R285). -/
def sourceId (s : State) (g : Group) (lane : Nat) : Word :=
  let kind := match g.role with | .ordinary => 0 | .service .. => 1
  BitVec.ofNat 32 (kind * pow2 30 + s.slotId g * 32 + lane)

/-- The free entries of a home's request queue of 4,096: those not taken by requests that have come and are in no batch yet (11 R281, R286). -/
def homeRoom (s : State) (h : Nat) : Nat :=
  match s.home? h with
  | none => 4096
  | some x => 4096 - (x.queue.length + ((x.bins ++ x.closed).map fun b => b.reqs.length).sum)

/-- Whether a home's request queue is full. -/
def homeFull (s : State) (h : Nat) : Bool := homeRoom s h == 0

/-- Whether a unit waits for room in the request queues of some homes (11 R286); in Ephemeris mode its requests are held to the quantum's end,
and room is a matter of their homes then (17 R404, R406). -/
def waitsForHome (c : Ctx) (homes : List Nat) : Bool := (c.s.ephGrid c.g).isNone && homes.any (homeFull c.s)

/-- A request of a lane of the fragment that issues. -/
def mkRequest (c : Ctx) (id home lane : Nat) (base : Dword) (loc : Loc) (ask : Ask) (op0 op1 : Word) (reply : Option ReplyTo)
    (str : BitVec 4) : Request :=
  { id := id, home := home, source := sourceId c.s c.g lane, lane := lane, base := base, loc := loc, ask := ask, op0 := op0, op1 := op1,
    rights := c.s.rightsOf c.g, grid := (c.s.gridOf c.g).map Grid.id, reply := reply, pc := c.f.pc, group := some c.g.id,
    str := str, frag := c.f.id, unit := c.s.nextId, time := none, port := none }

/-- Emits the effects of a list in order. -/
def emitAll (s : State) (gid : Nat) (es : List Effect) : State := es.foldl (fun s e => emit s gid e) s

/-- Fresh ids for a list. -/
def withIds {α : Type} (s : State) (l : List α) : List (Nat × α) × State :=
  (l.mapIdx fun i x => (s.nextId + i, x), { s with nextId := s.nextId + l.length })

/-! ### ATOM and RED (12 R309 to R313) -/

/-- Bytes of an atomic's element (12 R309). -/
def atomSize (t : BitVec 3) : Nat := if t = 2 ∨ t = 3 ∨ t = 5 then 8 else 4

/-- An atomic: its lanes are checked as an access that reads and writes, and one request is sent for each (12 R309, R311, R313);
`la` is the lookahead of an ATOM, none for a RED. -/
def atomBody (px : Option Modw) (d a : BitVec 7) (o : BitVec 4) (t : BitVec 3) (la : Option (BitVec 4)) (c : Ctx) : UnitRes :=
  let ls := activeLanes c px
  if ls = [] then .done c.s
  else match checkLanes c .update (ls.map fun i => (i, vget64 c a i, atomSize t)) with
    | .bad r => r
    | .ok s l =>
      let homes := l.filterMap fun x => match x.2.2 with | .slice .. => none | .mem k => if keyTier k = 3 then none else some (homeOf c.s c.g.part x.2.1)
      if waitsForHome c homes then .wait
      else
        let (oid, s1) := s.fresh
        let (items, s2) := withIds s1 l
        let reply : Option ReplyTo := la.map fun _ => { group := c.g.id, frag := c.f.id, out := oid }
        let effect := fun (x : Nat × Nat × Dword × Loc) =>
          let r := mkRequest c x.1 (homeOf c.s c.g.part x.2.2.1) x.2.1 x.2.2.1 x.2.2.2 (.intrinsic o t) (vget c d x.2.1)
            (c.g.getV (vr c d + 1) x.2.1) reply (mw px).str
          match x.2.2.2 with | .slice .. => Effect.windowAtomic r | .mem _ => .request r
        let s3 := match la with
          | none => s2
          | some f => addOut c s2 { newOut oid .atom [.v (vr c d), .v (vr c d + 1)] f.toNat c.f.pc with
              str := (mw px).str, awaits := ls, addrs := l.map fun x => (x.1, x.2.1) }
        .done (emitAll s3 c.g.id (items.map effect))

/-- What ATOM, RED, OBJCALL and OBJPOST touch: two vector pairs. -/
def pairsSpec (px : Option Modw) (d a : BitVec 7) (method quantum : Bool) (c : Ctx) : UnitSpec :=
  { words := unitWords px, vs := vrs c d 2 ++ vrs c a 2, noMethod := method, region := true, quantum := quantum, rel := streamMask px }

/-- ATOM (R309). -/
def execAtom (px : Option Modw) (d a : BitVec 7) (o : BitVec 4) (t : BitVec 3) (l : BitVec 4) (s : State) :
    Host.Outcome State Fault Refusal :=
  runUnit s (pairsSpec px d a true true) (atomBody px d a o t (some l))

/-- RED (R310). -/
def execRed (px : Option Modw) (d a : BitVec 7) (o : BitVec 4) (t : BitVec 3) (s : State) : Host.Outcome State Fault Refusal :=
  runUnit s (pairsSpec px d a true false) (atomBody px d a o t none)

/-! ### OBJCALL and OBJPOST (11 R305, R294) -/

/-- Where the object of a base is: its page in tier 3, or this device (11 R280). -/
def objectLoc (c : Ctx) (base : Dword) : Loc :=
  match translate c.s (c.s.rightsOf c.g) none .load base 0 with
  | .loc l 3 _ => l
  | _ => .mem base.toNat

/-- Whether an object's page lies in a tier that Ephemeris mode forbids (17 R409). -/
def objectFar (c : Ctx) (base : Dword) : Bool :=
  (c.s.ephGrid c.g).isSome &&
  (match translate c.s (c.s.rightsOf c.g) none .load base 0 with | .loc _ n _ => n == 1 || n == 3 | _ => false)

/-- The checks of object bases by lane: MISALIGN for a base that is no multiple of 64, ACCESS for a window or non-canonical one (11 R305). -/
def checkBases (c : Ctx) (bs : List (Nat × Dword)) : Option UnitRes :=
  let mis := bs.filter fun x => !(x.2.toNat % 64 == 0)
  if mis ≠ [] then some (trapLanes causeMisalign mis)
  else
    let acc := bs.filter fun x => !(x.2.extractLsb' 57 7 == 0)
    if acc ≠ [] then some (trapLanes causeAccess acc)
    else if bs.any fun x => objectFar c x.2 then some (.trap causeEphviol c.f.mask 0)
    else none

/-- A method call of every active lane (11 R305): `la` is the lookahead of an OBJCALL, none for an OBJPOST.  In method code a post is
held with the batch, and one to the method's own home is a fatal method fault (11 R294). -/
def callBody (px : Option Modw) (d a m : BitVec 7) (la : Option (BitVec 4)) (c : Ctx) : UnitRes :=
  let ls := activeLanes c px
  let bs := ls.map fun i => (i, vget64 c a i)
  if ls = [] then .done c.s
  else match checkBases c bs with
    | some r => r
    | none =>
      let local_ := bs.filter fun x => !(keyTier (match objectLoc c x.2 with | .mem k => k | .slice .. => 0) == 3)
      let homes := local_.map fun x => homeOf c.s c.g.part x.2
      let (oid, s1) := c.s.fresh
      let (items, s2) := withIds s1 bs
      let reply : Option ReplyTo := la.map fun _ => { group := c.g.id, frag := c.f.id, out := oid }
      let reqs := items.map fun x =>
        mkRequest c x.1 (homeOf c.s c.g.part x.2.2) x.2.1 x.2.2 (objectLoc c x.2.2) (.method m) (vget c d x.2.1)
          (c.g.getV (vr c d + 1) x.2.1) reply (mw px).str
      match c.g.role with
      | .service h sg =>
        if homes.contains h then .trap causeIllegal c.f.mask 0
        else .done (s2.modHome h fun x => { x with
          batches := x.batches.map fun b => if b.sg = sg then { b with posts := b.posts ++ reqs } else b })
      | .ordinary =>
        if waitsForHome c homes then .wait
        else
          let s3 := match la with
            | none => s2
            | some f => addOut c s2 { newOut oid .objcall [.v (vr c d), .v (vr c d + 1)] f.toNat c.f.pc with
                str := (mw px).str, awaits := ls, addrs := bs }
          .done (emitAll s3 c.g.id (reqs.map Effect.request))

/-- OBJCALL (R305): ILLEGAL in method code (R292). -/
def execObjcall (px : Option Modw) (d a m : BitVec 7) (l : BitVec 4) (s : State) : Host.Outcome State Fault Refusal :=
  runUnit s (pairsSpec px d a true true) (callBody px d a m (some l))

/-- OBJPOST (R305). -/
def execObjpost (px : Option Modw) (d a m : BitVec 7) (s : State) : Host.Outcome State Fault Refusal :=
  runUnit s (pairsSpec px d a false false) (callBody px d a m none)

/-! ### OBJBIND and OBJUNBIND (11 R306) -/

/-- A request of the whole fragment whose status goes to the interlocked scalar s[d] (11 R306).  The lane of its source id, which 11 R285 gives to a
request of one lane, is 0 (DESIGN CHOICE, notes/assumptions/105.md). -/
def bindBody (d : BitVec 6) (base : Dword) (ask : Ask) (c : Ctx) : UnitRes :=
  match checkBases c [(0, base)] with
  | some (.trap k _ x) => .trap k c.f.mask x
  | some r => r
  | none =>
    let h := homeOf c.s c.g.part base
    if waitsForHome c [h] then .wait
    else
      let (oid, s1) := c.s.fresh
      let (id, s2) := s1.fresh
      let r := mkRequest c id h 0 base (objectLoc c base) ask 0 0 (some { group := c.g.id, frag := c.f.id, out := oid }) 0
      let s3 := addOut c s2 { newOut oid .kept [.s d.toNat] 15 c.f.pc with interlock := true, awaits := [0] }
      .done (emit s3 c.g.id (.request r))

/-- OBJBIND (R306): the length in s[b], the table selector in s[b+1]; selector 0 means the issuing grid's method table. -/
def execObjbind (d : BitVec 6) (a b : BitVec 5) (s : State) : Host.Outcome State Fault Refusal :=
  runUnit s (fun _ => { ss := d.toNat :: pairRegs a ++ pairRegs b, noMethod := true, region := true }) fun c =>
    let table := match c.s.gridOf c.g with | none => 0 | some x => x.record.methods
    bindBody d (c.g.getPair (pairOf a)) (.bind (c.g.getS (pairOf b)) (c.g.getS (pairOf b + 1)) table) c

/-- OBJUNBIND (R306). -/
def execObjunbind (d : BitVec 6) (a : BitVec 5) (s : State) : Host.Outcome State Fault Refusal :=
  runUnit s (fun _ => { ss := d.toNat :: pairRegs a, noMethod := true, region := true }) fun c =>
    bindBody d (c.g.getPair (pairOf a)) .unbind c

/-! ### CRET and CABORT (11 R295, R299, R303) -/

/-- The 16-byte words that a store buffer holds nibbles of. -/
def bufferWords (b : Cells) : List Nat := (b.map fun x => x.1 / 32).eraseDups

/-- Whether a store buffer covers a 16-byte word whole. -/
def wholeWord (b : Cells) (w : Nat) : Bool := (List.range 32).all fun i => (sfind b (32 * w + i)).isSome

/-- Whether a store buffer holds a nibble of a byte. -/
def bufferHas (b : Cells) (k : Nat) : Bool := (sfind b (2 * k)).isSome || (sfind b (2 * k + 1)).isSome

/-- Commits one 16-byte word of a batch's store buffer: its nibbles over memory; a word with an error that is not covered whole, or one out of
reach, is not performed and is logged (11 R303, 08 R224).  Of a word in a pool the rest is what has been read there before (19 R436).  In a running
phase the bytes that it stores are for everyone, and stand among the writes of the teams that asked (17 R406). -/
def commitWord (s : State) (q part : Nat) (req : Word) (b : Batch) (w : Nat) : State :=
  let l := Loc.mem (16 * w)
  let old := fun (k : Nat) => (sfind (b.found.getD []) k).getD (readKey s k)
  let new := fun (k : Nat) => overNibbles b.buffer k (old k)
  if (hasError s l && !(wholeWord b.buffer w)) || !(reachable s part l) then logAccess s part l (BitVec.ofNat 64 (16 * w)) 0 req
  else
    let stored := ((List.range 16).map fun i => 16 * w + i).filter (bufferHas b.buffer)
    writeAt (stored.foldl (fun s k => noteBatch s b.bin.reqs (.mem k) [new k]) (keepPast s .none l 16)) q l ((List.range 16).map fun i => new (16 * w + i))

/-- The bytes of the words in a pool that a commit writes in part: it reads them first, in an access of their own (19 R436; that these are the
16-byte words of the stores is DEDUCED, notes/assumptions/96.md). -/
def pooledWords (s : State) (b : Batch) : Cells :=
  ((bufferWords b.buffer).filter fun w => keyTier (16 * w) == 1 && !(wholeWord b.buffer w)).flatMap fun w =>
    (List.range 16).map fun i => (16 * w + i, readKey s (16 * w + i))

/-- A post as a batch sends it: it takes the logical time, the grid and the place of the request in its lane, one hop further on, and is that
group's as far as the phase is concerned (17 R406). -/
def Batch.send (b : Batch) (r : Request) : Request :=
  match b.bin.reqs[r.lane]? with
  | none => r
  | some x =>
    if x.time.isNone then { r with hops := x.hops + 1 }
    else { r with time := x.time, hops := x.hops + 1, grid := x.grid, group := x.group, place := x.place }

/-- The commit of a batch: every buffered store, then the held posts (11 R295, R303). -/
def commitBatch (s : State) (part : Nat) (b : Batch) (h : Nat) : State :=
  let q := ((b.bin.reqs.head?.bind Request.time).map Prod.fst).getD 0
  let s1 := (bufferWords b.buffer).foldl (fun s w => commitWord s q part (requester 3 h) b w) s
  b.posts.foldl (fun s r => sendRequest s q part (b.send r)) s1

/-- Replies one value and status to each request of a batch by its lane. -/
def replyLanes (s : State) (part : Nat) (rs : List Request) (value : Nat → Word) (status : Nat → Word) : State :=
  (rs.foldl (fun (st : State × Nat) r => (replyTo st.1 part r (value st.2) (status st.2) false, st.2 + 1)) (s, 0)).1

/-- Whether another batch of a home stands between the two accesses of a pool that it updates: an update of a pool is atomic with respect to what
passes through the same home, so no other begins one, or makes one, before it is done (19 R436).  The batch that asks is that of a service group,
or of a closed bin. -/
def poolBusy (s : State) (home : Nat) (sg num : Option Nat) : Bool :=
  (s.home? home).any fun h =>
    (h.batches.any fun b => b.commits && sg != some b.sg) || h.found.any (fun x => num != some x.1) ||
    h.closed.any fun b => num != some b.num && b.reqs.any fun r => r.found.isSome

/-- Whether a batch stores to a pool. -/
def Batch.pooled (b : Batch) : Bool := (bufferWords b.buffer).any fun w => keyTier (16 * w) == 1

/-- The end of a batch by its method (11 R295): ILLEGAL outside a method; a fatal method fault when the fragment is not lanes 0 to n - 1
or a status is out of range. -/
def endMethod (commits : Bool) (d a : BitVec 7) (c : Ctx) : UnitRes :=
  match c.g.role, batchOf c.s c.g with
  | .service h sg, some b =>
    let n := b.bin.reqs.length
    let st := fun (i : Nat) => vget c a i &&& 0xFF#32
    let bad := fun (i : Nat) => decide (0xF0 ≤ (st i).toNat) || (!commits && decide (st i = 0))
    if c.f.mask ≠ maskOf (List.range n) ∨ (List.range n).any bad = true then .gone (methodFault c.s h sg causeIllegal c.f.pc 0)
    else if commits && b.pooled && poolBusy c.s h (some sg) none then .wait
    else if commits && b.found.isNone && !((pooledWords c.s b).isEmpty) then
      .gone (c.s.modHome h fun x => { x with batches := x.batches.map fun y => if y.sg = sg then { y with found := some (pooledWords c.s b) } else y })
    else
      let part := partOfHome c.s h
      let s1 := if commits then commitBatch c.s part b h else c.s
      let s2 := replyLanes s1 part b.bin.reqs (fun i => if commits then vget c d i else 0) st
      .gone (dropBatch s2 h sg)
  | _, _ => .trap causeIllegal c.f.mask 0

/-- CRET (R295). -/
def execCret (d a : BitVec 7) (s : State) : Host.Outcome State Fault Refusal :=
  runUnit s (fun c => { vs := [vr c d, vr c a], path := true }) (endMethod true d a)

/-- CABORT (R295). -/
def execCabort (a : BitVec 7) (s : State) : Host.Outcome State Fault Refusal :=
  runUnit s (fun c => { vs := [vr c a], path := true }) (endMethod false a a)

end Sys2Proof.Machine
end

