-- ==== Sys2Proof/Machine/LoadStore.lean ====
section
/-!
DEFINITION. Loads and stores: LD, ST, LDS, STS, PLD and PST (08 R225 to R233).
-/

namespace Sys2Proof.Machine

/-- The words of a value of 32 bits each, lowest first (08 R226). -/
def wordsOf (n x : Nat) : List Word := (List.range n).map fun k => BitVec.ofNat 32 (x / pow2 (32 * k))

/-- An LD of `n` registers and `size` bytes (08 R226). -/
def ldOp (n size : Nat) (words : Nat → List Word) (px : Option Modw) (d : BitVec 7) (am : BitVec 1) (a : BitVec 6) (b : BitVec 7)
    (l : BitVec 4) (s : State) : Host.Outcome State Fault Refusal :=
  runUnit s (fun c => { words := unitWords px, vs := vrs c d n ++ memVectors c am b, ss := memScalars am a }) fun c =>
    loadLanes c px l (vrs c d n) size words (laneAddr c am a b)

/-- The store data of a lane: `n` registers, low word first (08 R227). -/
def storeData (c : Ctx) (d : BitVec 7) (n i : Nat) : Nat :=
  (List.range n).foldl (fun acc k => acc + (c.g.getV (vr c d + k) i).toNat * pow2 (32 * k)) 0

/-- A store of lanes; a release store first reports a narrow store of its stream that met an error (08 R224). -/
def storeRel (c : Ctx) (px : Option Modw) (release : Bool) (size : Nat) (data : Nat → Nat) (addr : Nat → Dword) : UnitRes :=
  if release ∧ activeLanes c px ≠ [] then
    match checkLanes c .store ((activeLanes c px).map fun i => (i, addr i, size)) with
    | .bad r => r
    | .ok _ _ =>
      match narrowTrap c (fun x => x == (mw px).str) with
      | some r => r
      | none => storeLanes c px size data addr
  else storeLanes c px size data addr

/-- An ST of `n` registers and `size` bytes (08 R227); with release, ILLEGAL in method code (11 R292). -/
def stOp (n size : Nat) (px : Option Modw) (d : BitVec 7) (am : BitVec 1) (a : BitVec 6) (b : BitVec 7) (rel : BitVec 1) (s : State) :
    Host.Outcome State Fault Refusal :=
  runUnit s (fun c =>
    { words := unitWords px, vs := vrs c d n ++ memVectors c am b, ss := memScalars am a, noMethod := rel == 1,
      rel := if rel = 1 then streamMask px else 0, far := farScope px }) fun c =>
    storeRel c px (rel == 1) size (storeData c d n) (laneAddr c am a b)

/-- LD8U (R226). -/
def execLd8u (px : Option Modw) (d : BitVec 7) (am : BitVec 1) (a : BitVec 6) (b : BitVec 7) (l : BitVec 4) (s : State) :
    Host.Outcome State Fault Refusal :=
  ldOp 1 1 (fun x => [BitVec.ofNat 32 x]) px d am a b l s

/-- LD8S (R226). -/
def execLd8s (px : Option Modw) (d : BitVec 7) (am : BitVec 1) (a : BitVec 6) (b : BitVec 7) (l : BitVec 4) (s : State) :
    Host.Outcome State Fault Refusal :=
  ldOp 1 1 (fun x => [(BitVec.ofNat 8 x).signExtend 32]) px d am a b l s

/-- LD16U (R226). -/
def execLd16u (px : Option Modw) (d : BitVec 7) (am : BitVec 1) (a : BitVec 6) (b : BitVec 7) (l : BitVec 4) (s : State) :
    Host.Outcome State Fault Refusal :=
  ldOp 1 2 (fun x => [BitVec.ofNat 32 x]) px d am a b l s

/-- LD16S (R226). -/
def execLd16s (px : Option Modw) (d : BitVec 7) (am : BitVec 1) (a : BitVec 6) (b : BitVec 7) (l : BitVec 4) (s : State) :
    Host.Outcome State Fault Refusal :=
  ldOp 1 2 (fun x => [(BitVec.ofNat 16 x).signExtend 32]) px d am a b l s

/-- LD32 (R226). -/
def execLd32 (px : Option Modw) (d : BitVec 7) (am : BitVec 1) (a : BitVec 6) (b : BitVec 7) (l : BitVec 4) (s : State) :
    Host.Outcome State Fault Refusal :=
  ldOp 1 4 (wordsOf 1) px d am a b l s

/-- LD64 (R226). -/
def execLd64 (px : Option Modw) (d : BitVec 7) (am : BitVec 1) (a : BitVec 6) (b : BitVec 7) (l : BitVec 4) (s : State) :
    Host.Outcome State Fault Refusal :=
  ldOp 2 8 (wordsOf 2) px d am a b l s

/-- LD128 (R226). -/
def execLd128 (px : Option Modw) (d : BitVec 7) (am : BitVec 1) (a : BitVec 6) (b : BitVec 7) (l : BitVec 4) (s : State) :
    Host.Outcome State Fault Refusal :=
  ldOp 4 16 (wordsOf 4) px d am a b l s

/-- ST8 (R227); the streaming flag changes no effect. -/
def execSt8 (px : Option Modw) (d : BitVec 7) (am : BitVec 1) (a : BitVec 6) (b : BitVec 7) (_ r : BitVec 1) (s : State) :
    Host.Outcome State Fault Refusal :=
  stOp 1 1 px d am a b r s

/-- ST16 (R227). -/
def execSt16 (px : Option Modw) (d : BitVec 7) (am : BitVec 1) (a : BitVec 6) (b : BitVec 7) (_ r : BitVec 1) (s : State) :
    Host.Outcome State Fault Refusal :=
  stOp 1 2 px d am a b r s

/-- ST32 (R227). -/
def execSt32 (px : Option Modw) (d : BitVec 7) (am : BitVec 1) (a : BitVec 6) (b : BitVec 7) (_ r : BitVec 1) (s : State) :
    Host.Outcome State Fault Refusal :=
  stOp 1 4 px d am a b r s

/-- ST64 (R227). -/
def execSt64 (px : Option Modw) (d : BitVec 7) (am : BitVec 1) (a : BitVec 6) (b : BitVec 7) (_ r : BitVec 1) (s : State) :
    Host.Outcome State Fault Refusal :=
  stOp 2 8 px d am a b r s

/-- ST128 (R227). -/
def execSt128 (px : Option Modw) (d : BitVec 7) (am : BitVec 1) (a : BitVec 6) (b : BitVec 7) (_ r : BitVec 1) (s : State) :
    Host.Outcome State Fault Refusal :=
  stOp 4 16 px d am a b r s

/-! ### LDS and STS (08 R230) -/

/-- An LDS of `n` registers: LD at the window address. -/
def ldsOp (n : Nat) (px : Option Modw) (d : BitVec 7) (a : BitVec 6) (b : BitVec 7) (l : BitVec 4) (s : State) :
    Host.Outcome State Fault Refusal :=
  runUnit s (fun c => { words := unitWords px, vs := vrs c d n ++ [vr c b], ss := [a.toNat], noMethod := true }) fun c =>
    loadLanes c px l (vrs c d n) (4 * n) (wordsOf n) (sliceAddr c a b)

/-- An STS of `n` registers: ST at the window address. -/
def stsOp (n : Nat) (px : Option Modw) (d : BitVec 7) (a : BitVec 6) (b : BitVec 7) (s : State) : Host.Outcome State Fault Refusal :=
  runUnit s (fun c => { words := unitWords px, vs := vrs c d n ++ [vr c b], ss := [a.toNat], noMethod := true }) fun c =>
    storeLanes c px (4 * n) (storeData c d n) (sliceAddr c a b)

/-- LDS32 (R230). -/
def execLds32 (px : Option Modw) (d : BitVec 7) (a : BitVec 6) (b : BitVec 7) (l : BitVec 4) (s : State) :
    Host.Outcome State Fault Refusal :=
  ldsOp 1 px d a b l s

/-- LDS64 (R230). -/
def execLds64 (px : Option Modw) (d : BitVec 7) (a : BitVec 6) (b : BitVec 7) (l : BitVec 4) (s : State) :
    Host.Outcome State Fault Refusal :=
  ldsOp 2 px d a b l s

/-- LDS128 (R230). -/
def execLds128 (px : Option Modw) (d : BitVec 7) (a : BitVec 6) (b : BitVec 7) (l : BitVec 4) (s : State) :
    Host.Outcome State Fault Refusal :=
  ldsOp 4 px d a b l s

/-- STS32 (R230). -/
def execSts32 (px : Option Modw) (d : BitVec 7) (a : BitVec 6) (b : BitVec 7) (s : State) :
    Host.Outcome State Fault Refusal :=
  stsOp 1 px d a b s

/-- STS64 (R230). -/
def execSts64 (px : Option Modw) (d : BitVec 7) (a : BitVec 6) (b : BitVec 7) (s : State) :
    Host.Outcome State Fault Refusal :=
  stsOp 2 px d a b s

/-- STS128 (R230). -/
def execSts128 (px : Option Modw) (d : BitVec 7) (a : BitVec 6) (b : BitVec 7) (s : State) :
    Host.Outcome State Fault Refusal :=
  stsOp 4 px d a b s

/-! ### PLD and PST (08 R231, R232; 04 R99 to R102) -/

/-- The mantissa that a read of `n` planes gives, from the nibbles of the planes read, plane 0 first; with one nibble more it is rounded
by it, ties to even, and never wraps (04 R101, R102). -/
def planeMant (n : Nat) (qs : List Nat) : Int :=
  let t := toSigned (4 * n) ((qs.take n).foldl (fun acc q => 16 * acc + q) 0)
  match qs[n]? with
  | none => t
  | some q =>
    let u := if 8 < q ∨ (q = 8 ∧ t % 2 ≠ 0) then t + 1 else t
    if u = ((pow2 (4 * n - 1) : Nat) : Int) then u - 1 else u

/-- Planes that a read of `n` planes reads (08 R231). -/
def planesRead (n : Nat) (rne : Bool) : Nat := if rne && n < 8 then n + 1 else n

/-- Nibble i of 16 bytes. -/
def nibbleOf (bs : List Byte) (i : Nat) : Nat :=
  let b := (bs.getD (i / 2) 0).toNat
  if i % 2 = 0 then b % 16 else b / 16

/-- The addresses of `k` planes: s[a+1]:s[a] and the stride in s[a+2]. -/
def planeAddrs (c : Ctx) (a : BitVec 5) (k : Nat) : List Dword :=
  (List.range k).map fun j => c.g.getPair (pairOf a) + BitVec.ofNat 64 (j * (c.g.getS (pairOf a + 2)).toNat)

/-- The checks of a plane access, each plane read or written as a lane access of 16 bytes, for all active lanes (08 R220, R231). -/
def checkPlanes (c : Ctx) (k : Access) (ls : List Nat) (a : BitVec 5) (planes : Nat) : Checked :=
  let base := c.g.getPair (pairOf a)
  let stride := (c.g.getS (pairOf a + 2)).toNat
  if base.toNat % 16 ≠ 0 ∨ stride = 0 ∨ stride % 64 ≠ 0 then .bad (.trap causeMisalign (maskOf ls) base)
  else
    forLanes (maskOf ls) (checkLanes c k ((planeAddrs c a planes).mapIdx fun j x => (j, x, 16)))

/-- What PLD and PST touch. -/
def planeSpec (px : Option Modw) (d : BitVec 7) (a : BitVec 5) (c : Ctx) : UnitSpec :=
  { words := unitWords px, vs := [vr c d], ss := pairRegs a ++ [pairOf a + 2] }

/-- PLD (R231): one read of every plane, landing as a load; an error in any plane traps MEMERR for all active lanes (R223). -/
def execPld (px : Option Modw) (d : BitVec 7) (a : BitVec 5) (n : BitVec 3) (r : BitVec 1) (l : BitVec 4) (s : State) :
    Host.Outcome State Fault Refusal :=
  runUnit s (planeSpec px d a) fun c =>
    let ls := activeLanes c px
    let k := n.toNat + 1
    if ls = [] then .done c.s
    else match checkPlanes c .load ls a (planesRead k (r == 1)) with
      | .bad x => x
      | .ok s l' =>
        let bad := l'.filter fun x => (viewOf c.s c.g).broken s c.g.part x.2.2 16
        let s1 := logLanes c s bad
        let (id, s2) := s1.fresh
        let (s3, fl) := sendFlits s2 c.g.part (l'.map fun x => (32, x.2.2))
        let v := viewOf c.s c.g
        let data := l'.map fun x => readLocs s v x.2.2 16
        let ws := ls.map fun i =>
          ({ reg := .v (vr c d), lane := i,
             val := BitVec.ofNat 32 (wrapNat 32 (planeMant k (data.map fun bs => nibbleOf bs i) * (pow2 (32 - 4 * k) : Nat))) } : RegWrite)
        let trap : Option TrapInfo := match bad with
          | [] => none
          | x :: _ => some { cause := causeMemerr, mask := maskOf ls, addr := x.2.1, pc := c.f.pc, resume := 0, noEffect := false }
        let o : Out := { newOut id .load [.v (vr c d)] l.toNat c.f.pc with
          str := (mw px).str, writes := ws, trap := trap, addrs := ls.map fun i => (i, (l'.head?.map fun x => x.2.1).getD 0), flits := fl }
        .done (addOut c s3 o)

/-- The 16 bytes of plane j and their mask: the nibbles of the listed lanes (08 R232). -/
def planePiece (c : Ctx) (d : BitVec 7) (ls : List Nat) (j : Nat) (x : Dword) (l : Loc) : Piece :=
  let nib := fun (i : Nat) => if ls.contains i then (c.g.getV (vr c d) i).toNat / pow2 (28 - 4 * j) % 16 else 0
  let bits := fun (i : Nat) => if ls.contains i then 15 else 0
  { loc := l, addr := x,
    bytes := (List.range 16).map fun b => BitVec.ofNat 8 (nib (2 * b) + 16 * nib (2 * b + 1)),
    mask := if ls.length = 32 then [] else (List.range 16).map fun b => BitVec.ofNat 8 (bits (2 * b) + 16 * bits (2 * b + 1))
    plane := true }

/-- PST (R232): the nibbles of every plane, as one commit unit. -/
def execPst (px : Option Modw) (d : BitVec 7) (a : BitVec 5) (n : BitVec 3) (s : State) : Host.Outcome State Fault Refusal :=
  runUnit s (planeSpec px d a) fun c =>
    let ls := activeLanes c px
    if ls = [] then .done c.s
    else match checkPlanes c .store ls a (n.toNat + 1) with
      | .bad x => x
      | .ok s l => storePieces c s (mw px).str (l.map fun x => planePiece c d ls x.1 x.2.1 x.2.2)

end Sys2Proof.Machine
end

