-- ==== Sys2Proof/Machine/VectorInt.lean ====
section
/-!
DEFINITION. The vector integer, lane and cross-lane instructions (07 R181 to R195, R202, R203).
-/

namespace Sys2Proof.Machine

/-- A vector result: each active lane of absolute register `d` takes a word; `vs` and `ss` are the registers touched beside it
(07 R181). -/
def vectorOp (words : Nat) (px : Option Modw) (d : Ctx → Nat) (vs : Ctx → List Nat) (ss : List Nat) (x : Ctx → Nat → Word) (s : State) :
    Host.Outcome State Fault Refusal :=
  runUnit s (fun c => { words := words, vs := d c :: vs c, ss := ss }) fun c =>
    doneG c (c.g.setLanes (d c) (activeLanes c px) (x c))

/-- A vector result of two vectors. -/
def vector2 (px : Option Modw) (f : Word → Word → Word) (d a b : BitVec 7) (s : State) : Host.Outcome State Fault Refusal :=
  vectorOp (unitWords px) px (fun c => vr c d) (fun c => [vr c a, vr c b]) [] (fun c i => f (vget c a i) (vget c b i)) s

/-- A vector result of one vector. -/
def vector1 (words : Nat) (px : Option Modw) (f : Word → Word) (d a : BitVec 7) (s : State) : Host.Outcome State Fault Refusal :=
  vectorOp words px (fun c => vr c d) (fun c => [vr c a]) [] (fun c i => f (vget c a i)) s

/-- VADD, VSUB and VMUL: the exact result of the modified operands through the tail with destination i32 (07 R185, 03 R77). -/
def vintTail (m : Modw) (f : Int → Int → Int) (x y : Word) : Word :=
  BitVec.ofNat 32 (tailInt true 32 m (f (modInt m.absa m.nega x.toInt) (modInt m.absb m.negb y.toInt)))

/-- VADD (R185). -/
def execVadd (px : Option Modw) (d a b : BitVec 7) (s : State) : Host.Outcome State Fault Refusal :=
  vector2 px (vintTail (mw px) fun x y => x + y) d a b s

/-- VSUB (R185). -/
def execVsub (px : Option Modw) (d a b : BitVec 7) (s : State) : Host.Outcome State Fault Refusal :=
  vector2 px (vintTail (mw px) fun x y => x - y) d a b s

/-- VMUL (R185). -/
def execVmul (px : Option Modw) (d a b : BitVec 7) (s : State) : Host.Outcome State Fault Refusal :=
  vector2 px (vintTail (mw px) fun x y => x * y) d a b s

/-- VMULHU (R185). -/
def execVmulhu (px : Option Modw) (d a b : BitVec 7) (s : State) : Host.Outcome State Fault Refusal := vector2 px (salu 3) d a b s

/-- VMULHS (R185). -/
def execVmulhs (px : Option Modw) (d a b : BitVec 7) (s : State) : Host.Outcome State Fault Refusal := vector2 px (salu 4) d a b s

/-- VAND (R185). -/
def execVand (px : Option Modw) (d a b : BitVec 7) (s : State) : Host.Outcome State Fault Refusal := vector2 px (salu 5) d a b s

/-- VOR (R185). -/
def execVor (px : Option Modw) (d a b : BitVec 7) (s : State) : Host.Outcome State Fault Refusal := vector2 px (salu 6) d a b s

/-- VXOR (R185). -/
def execVxor (px : Option Modw) (d a b : BitVec 7) (s : State) : Host.Outcome State Fault Refusal := vector2 px (salu 7) d a b s

/-- VSHL (R185). -/
def execVshl (px : Option Modw) (d a b : BitVec 7) (s : State) : Host.Outcome State Fault Refusal := vector2 px (salu 8) d a b s

/-- VSHR (R185). -/
def execVshr (px : Option Modw) (d a b : BitVec 7) (s : State) : Host.Outcome State Fault Refusal := vector2 px (salu 9) d a b s

/-- VSRA (R185). -/
def execVsra (px : Option Modw) (d a b : BitVec 7) (s : State) : Host.Outcome State Fault Refusal := vector2 px (salu 10) d a b s

/-- VMIN (R185). -/
def execVmin (px : Option Modw) (d a b : BitVec 7) (s : State) : Host.Outcome State Fault Refusal := vector2 px (salu 11) d a b s

/-- VMAX (R185). -/
def execVmax (px : Option Modw) (d a b : BitVec 7) (s : State) : Host.Outcome State Fault Refusal := vector2 px (salu 12) d a b s

/-- VMINU (R185). -/
def execVminu (px : Option Modw) (d a b : BitVec 7) (s : State) : Host.Outcome State Fault Refusal := vector2 px (salu 13) d a b s

/-- VMAXU (R185). -/
def execVmaxu (px : Option Modw) (d a b : BitVec 7) (s : State) : Host.Outcome State Fault Refusal := vector2 px (salu 14) d a b s

/-- VANDN (R185). -/
def execVandn (px : Option Modw) (d a b : BitVec 7) (s : State) : Host.Outcome State Fault Refusal := vector2 px (salu 15) d a b s

/-- A function of the two 16-bit elements of a lane, each on its own (07 R186, R200). -/
def halves (f : Nat → Nat → Nat) (x y : Word) : Word :=
  BitVec.ofNat 32 (f (x.toNat / pow2 16) (y.toNat / pow2 16) % pow2 16 * pow2 16 + f (x.toNat % pow2 16) (y.toNat % pow2 16) % pow2 16)

/-- VADDH2, VSUBH2, VMULH2: modulo 2^16, or the exact signed result saturated to i16 (07 R186). -/
def halfInt (sat : Bool) (f : Int → Int → Int) (x y : Nat) : Nat :=
  let r := f (toSigned 16 x) (toSigned 16 y)
  wrapNat 16 (if sat then saturate true 16 r else r)

/-- VADDH2 (R186). -/
def execVaddh2 (px : Option Modw) (d a b : BitVec 7) (s : State) : Host.Outcome State Fault Refusal :=
  vector2 px (halves (halfInt (mw px).sat fun x y => x + y)) d a b s

/-- VSUBH2 (R186). -/
def execVsubh2 (px : Option Modw) (d a b : BitVec 7) (s : State) : Host.Outcome State Fault Refusal :=
  vector2 px (halves (halfInt (mw px).sat fun x y => x - y)) d a b s

/-- VMULH2 (R186). -/
def execVmulh2 (px : Option Modw) (d a b : BitVec 7) (s : State) : Host.Outcome State Fault Refusal :=
  vector2 px (halves (halfInt (mw px).sat fun x y => x * y)) d a b s

/-- VMINH2 (R186). -/
def execVminh2 (px : Option Modw) (d a b : BitVec 7) (s : State) : Host.Outcome State Fault Refusal :=
  vector2 px (halves (fun x y => if toSigned 16 x ≤ toSigned 16 y then x else y)) d a b s

/-- VMAXH2 (R186). -/
def execVmaxh2 (px : Option Modw) (d a b : BitVec 7) (s : State) : Host.Outcome State Fault Refusal :=
  vector2 px (halves (fun x y => if toSigned 16 x ≤ toSigned 16 y then y else x)) d a b s

/-- VMINUH2 (R186). -/
def execVminuh2 (px : Option Modw) (d a b : BitVec 7) (s : State) : Host.Outcome State Fault Refusal :=
  vector2 px (halves (fun x y => if x ≤ y then x else y)) d a b s

/-- VMAXUH2 (R186). -/
def execVmaxuh2 (px : Option Modw) (d a b : BitVec 7) (s : State) : Host.Outcome State Fault Refusal :=
  vector2 px (halves (fun x y => if x ≤ y then y else x)) d a b s

/-- VMAD (R187): the exact product of the modified operands and the destination, through the tail of its type. -/
def execVmad (px : Option Modw) (d a b : BitVec 7) (t : BitVec 1) (s : State) : Host.Outcome State Fault Refusal :=
  let m := mw px
  let val := fun (x : Word) => if t = 0 then x.toInt else (x.toNat : Int)
  vectorOp (unitWords px) px (fun c => vr c d) (fun c => [vr c a, vr c b]) [] (fun c i =>
    BitVec.ofNat 32 (tailInt (t == 0) 32 m
      (modInt false m.nega (val (vget c a i)) * modInt false m.negb (val (vget c b i)) + val (vget c d i)))) s

/-- VADDI (R188): modulo 2^32, or saturated to i32. -/
def execVaddi (px : Option Modw) (d a : BitVec 7) (i : Imm11) (s : State) : Host.Outcome State Fault Refusal :=
  vector1 (immWords px i) px (fun x =>
    if (mw px).sat then wrap32 (saturate true 32 (x.toInt + i.value.toInt)) else x + i.value) d a s

/-- VANDI (R188). -/
def execVandi (px : Option Modw) (d a : BitVec 7) (i : Imm11) (s : State) : Host.Outcome State Fault Refusal :=
  vector1 (immWords px i) px (fun x => x &&& i.value) d a s

/-- VSHLI (R188). -/
def execVshli (px : Option Modw) (d a : BitVec 7) (i : BitVec 5) (s : State) : Host.Outcome State Fault Refusal :=
  vector1 (unitWords px) px (fun x => salu 8 x (i.setWidth 32)) d a s

/-- VSHRI (R188). -/
def execVshri (px : Option Modw) (d a : BitVec 7) (i : BitVec 5) (s : State) : Host.Outcome State Fault Refusal :=
  vector1 (unitWords px) px (fun x => salu 9 x (i.setWidth 32)) d a s

/-- VSRAI (R188). -/
def execVsrai (px : Option Modw) (d a : BitVec 7) (i : BitVec 5) (s : State) : Host.Outcome State Fault Refusal :=
  vector1 (unitWords px) px (fun x => salu 10 x (i.setWidth 32)) d a s

/-- VCLZ (R189). -/
def execVclz (px : Option Modw) (d a : BitVec 7) (s : State) : Host.Outcome State Fault Refusal :=
  vector1 (unitWords px) px (leadingZeros) d a s

/-- VPOPC (R189). -/
def execVpopc (px : Option Modw) (d a : BitVec 7) (s : State) : Host.Outcome State Fault Refusal :=
  vector1 (unitWords px) px (fun x => BitVec.ofNat 32 (popCount x)) d a s

/-- VBREV (R189). -/
def execVbrev (px : Option Modw) (d a : BitVec 7) (s : State) : Host.Outcome State Fault Refusal :=
  vector1 (unitWords px) px (reverseBits) d a s

/-- VMOV (R189). -/
def execVmov (px : Option Modw) (d a : BitVec 7) (s : State) : Host.Outcome State Fault Refusal :=
  vector1 (unitWords px) px (fun x => x) d a s

/-- VNOT (R189). -/
def execVnot (px : Option Modw) (d a : BitVec 7) (s : State) : Host.Outcome State Fault Refusal :=
  vector1 (unitWords px) px (fun x => ~~~x) d a s

/-- VIABS (R189). -/
def execViabs (px : Option Modw) (d a : BitVec 7) (s : State) : Host.Outcome State Fault Refusal :=
  vector1 (unitWords px) px (fun x => BitVec.ofNat 32 (intTail true 32 0 0 (mw px).sat (modInt true false x.toInt))) d a s

/-- VINEG (R189). -/
def execVineg (px : Option Modw) (d a : BitVec 7) (s : State) : Host.Outcome State Fault Refusal :=
  vector1 (unitWords px) px (fun x => BitVec.ofNat 32 (intTail true 32 0 0 (mw px).sat (modInt false true x.toInt))) d a s

/-- The field that a control word names: its value and width (07 R190). -/
def bitField (x k : Word) : Nat × Nat :=
  let pos := k.toNat % 32
  let w := min (k.toNat / 256 % 64) 32
  let top := min (pos + w) 32
  if w = 0 then (0, 0) else (bitsOf x.toNat (top - 1) pos, top - pos)

/-- VBFEU (R190). -/
def execVbfeu (px : Option Modw) (d a b : BitVec 7) (s : State) : Host.Outcome State Fault Refusal :=
  vector2 px (fun x k => BitVec.ofNat 32 (bitField x k).1) d a b s

/-- VBFES (R190): the sign is the highest bit of the field that remains. -/
def execVbfes (px : Option Modw) (d a b : BitVec 7) (s : State) : Host.Outcome State Fault Refusal :=
  vector2 px (fun x k =>
    let f := bitField x k
    if f.2 = 0 then 0 else BitVec.ofInt 32 (toSigned f.2 f.1)) d a b s

/-- VBFI (R190). -/
def execVbfi (px : Option Modw) (d a b : BitVec 7) (s : State) : Host.Outcome State Fault Refusal :=
  vectorOp (unitWords px) px (fun c => vr c d) (fun c => [vr c a, vr c b]) [] (fun c i =>
    let k := (vget c b i).toNat
    let pos := k % 32
    let m := BitVec.ofNat 32 ((pow2 (min (k / 256 % 64) 32) - 1) <<< pos)
    (vget c d i &&& ~~~m) ||| ((vget c a i <<< pos) &&& m)) s

/-- VPERMB .n8 (R191): bytes of a pair. -/
def execVpermb (px : Option Modw) (d a b : BitVec 7) (s : State) : Host.Outcome State Fault Refusal :=
  vectorOp (unitWords px) px (fun c => vr c d) (fun c => vrs c a 2 ++ [vr c b]) [] (fun c i =>
    let src := (vget64 c a i).toNat
    let sel := (vget c b i).toNat
    BitVec.ofNat 32 (natOfBytes ((List.range 4).map fun j =>
      let k := bitsOf sel (8 * j + 7) (8 * j)
      if 128 ≤ k then 0 else BitVec.ofNat 8 (src >>> (8 * (k % 8)))))) s

/-- VPERMB .n4 (R191): nibbles of a register. -/
def execVpermbN4 (px : Option Modw) (d a b : BitVec 7) (s : State) : Host.Outcome State Fault Refusal :=
  vector2 px (fun src sel =>
    BitVec.ofNat 32 (((List.range 8).map fun j =>
      let k := bitsOf sel.toNat (4 * j + 3) (4 * j)
      (if 8 ≤ k then 0 else (src.toNat >>> (4 * (k % 8))) % 16) <<< (4 * j)).foldl (fun x y => x + y) 0)) d a b s

/-- VSETP (R192). -/
def execVsetp (px : Option Modw) (d : BitVec 4) (a b : BitVec 7) (r : BitVec 4) (s : State) : Host.Outcome State Fault Refusal :=
  runUnit s (fun c => { words := unitWords px, vs := [vr c a, vr c b] }) fun c =>
    doneG c (setPred c.g d (activeLanes c px) fun i => wordRel r (vget c a i) (vget c b i))

/-- VSEL (R193). -/
def execVsel (px : Option Modw) (d a b : BitVec 7) (p : BitVec 4) (s : State) : Host.Outcome State Fault Refusal :=
  vectorOp (unitWords px) px (fun c => vr c d) (fun c => [vr c a, vr c b]) [] (fun c i =>
    if (c.g.getP p.toNat).getLsbD i then vget c a i else vget c b i) s

/-- VMOVS (R194). -/
def execVmovs (px : Option Modw) (d : BitVec 7) (a : BitVec 6) (s : State) : Host.Outcome State Fault Refusal :=
  vectorOp (unitWords px) px (fun c => vr c d) (fun _ => []) [a.toNat] (fun c _ => c.g.getS a.toNat) s

/-- VINS (R194): into one lane, if it is active. -/
def execVins (px : Option Modw) (d : BitVec 7) (a b : BitVec 6) (s : State) : Host.Outcome State Fault Refusal :=
  runUnit s (fun c => { words := unitWords px, vs := [vr c d], ss := [a.toNat, b.toNat] }) fun c =>
    doneG c (c.g.setLanes (vr c d) ((activeLanes c px).filter fun i => i == (c.g.getS b.toNat).toNat % 32) fun _ => c.g.getS a.toNat)

/-- VLANE (R194). -/
def execVlane (px : Option Modw) (d : BitVec 7) (s : State) : Host.Outcome State Fault Refusal :=
  vectorOp (unitWords px) px (fun c => vr c d) (fun _ => []) [] (fun _ i => BitVec.ofNat 32 i) s

/-- The absolute register that a scalar index names (03 R64). -/
def indexed (c : Ctx) (a : BitVec 6) : Nat := c.g.window + (c.g.getS a.toNat).toNat

/-- VMOVXR (R195). -/
def execVmovxr (px : Option Modw) (d : BitVec 7) (a : BitVec 6) (s : State) : Host.Outcome State Fault Refusal :=
  vectorOp (unitWords px) px (fun c => vr c d) (fun c => [indexed c a]) [a.toNat] (fun c i => c.g.getV (indexed c a) i) s

/-- VMOVXW (R195). -/
def execVmovxw (px : Option Modw) (a : BitVec 6) (b : BitVec 7) (s : State) : Host.Outcome State Fault Refusal :=
  vectorOp (unitWords px) px (fun c => indexed c a) (fun c => [vr c b]) [a.toNat] (fun c i => vget c b i) s

/-- VCONF (R203): the earlier active lanes with the same value, and the first occurrences in p[f]. -/
def execVconf (px : Option Modw) (d a : BitVec 7) (p : BitVec 4) (s : State) : Host.Outcome State Fault Refusal :=
  runUnit s (fun c => { words := unitWords px, vs := [vr c d, vr c a] }) fun c =>
    let ls := activeLanes c px
    let m := fun i => laneWord ls fun j => decide (j < i) && vget c a j == vget c a i
    doneG c (setPred (c.g.setLanes (vr c d) ls m) p ls fun i => m i == 0)

/-- VSHFL (R202). -/
def execVshfl (px : Option Modw) (d a b : BitVec 7) (s : State) : Host.Outcome State Fault Refusal :=
  vectorOp (unitWords px) px (fun c => vr c d) (fun c => [vr c a, vr c b]) [] (fun c i => vget c a ((vget c b i).toNat % 32)) s

/-- A shuffle by a fixed map of lanes. -/
def shuffle (px : Option Modw) (d a : BitVec 7) (f : Nat → Nat) (s : State) : Host.Outcome State Fault Refusal :=
  vectorOp (unitWords px) px (fun c => vr c d) (fun c => [vr c a]) [] (fun c i => vget c a (f i)) s

/-- VSHFLX (R202). -/
def execVshflx (px : Option Modw) (d a : BitVec 7) (k : BitVec 5) (s : State) : Host.Outcome State Fault Refusal := shuffle px d a (fun i => i ^^^ k.toNat) s

/-- VSHFLU (R202). -/
def execVshflu (px : Option Modw) (d a : BitVec 7) (k : BitVec 5) (s : State) : Host.Outcome State Fault Refusal :=
  shuffle px d a (fun i => if k.toNat ≤ i then i - k.toNat else i) s

/-- VSHFLD (R202). -/
def execVshfld (px : Option Modw) (d a : BitVec 7) (k : BitVec 5) (s : State) : Host.Outcome State Fault Refusal :=
  shuffle px d a (fun i => if i + k.toNat ≤ 31 then i + k.toNat else i) s

/-! ### Reductions and scans (07 R204 to R207) -/

/-- The element width of a reduction type: 2, 3 and 5 are 64-bit. -/
def redWide (t : BitVec 3) : Bool := t == 2 || t == 3 || t == 5

/-- The floating-point format of a reduction type. -/
def redFmt (t : BitVec 3) : Option FloatFmt := if t = 4 then some fmtF32 else if t = 5 then some fmtF64 else none

/-- comb of two present elements (07 R205). -/
def redComb (o t : BitVec 3) (x y : Nat) : Nat :=
  let w := if redWide t then 64 else 32
  let signed := t == 0 || t == 2
  let less := fun (x y : Nat) => if signed then decide (toSigned w x ≤ toSigned w y) else decide (x ≤ y)
  match o.toNat, redFmt t with
  | 0, none => (x + y) % pow2 w
  | 0, some f => f.encode 0 false (Num.add false (f.decode x) (f.decode y))
  | 1, none => if less x y then x else y
  | 1, some f => f.minCode x y
  | 2, none => if less x y then y else x
  | 2, some f => f.maxCode x y
  | 3, _ => x &&& y
  | 4, _ => x ||| y
  | 5, _ => x ^^^ y
  | 6, some f => f.minnCode false x y
  | 7, some f => f.minnCode true x y
  | _, _ => x

/-- comb with absent elements (07 R205). -/
def combOpt (o t : BitVec 3) : Option Nat → Option Nat → Option Nat
  | x, none => x
  | none, y => y
  | some x, some y => some (redComb o t x y)

/-- Whether a reduction sums exactly and saturates once (07 R205). -/
def redExact (m : Modw) (o t : BitVec 3) : Bool := m.sat && o == 0 && (redFmt t).isNone

/-- The exact sum of elements, saturated to the type. -/
def redSum (t : BitVec 3) (xs : List (Option Nat)) : Nat :=
  let w := if redWide t then 64 else 32
  let signed := t == 0 || t == 2
  let val := fun (x : Nat) => if signed then toSigned w x else (x : Int)
  wrapNat w (saturate signed w (xs.foldl (fun a x => match x with | none => a | some y => a + val y) 0))

/-- A float element whose NaN is canonical: every NaN a reduction gives is (04 R95, 07 R205), so a leaf may be made so at once. -/
def redCanon (t : BitVec 3) (x : Nat) : Nat :=
  match redFmt t with
  | none => x
  | some f => if (f.decode x).isNan then f.nanc.getD 0 else x

/-- The leaves: the elements of the active lanes (07 R205). -/
def redLeaves (c : Ctx) (px : Option Modw) (a : BitVec 7) (t : BitVec 3) : List (Option Nat) :=
  let ls := activeLanes c px
  lanes.map fun i =>
    if ls.contains i then some (redCanon t (if redWide t then (vget64 c a i).toNat else (vget c a i).toNat)) else none

/-- One level of the pairwise tree (07 R206). -/
def pairUp (o t : BitVec 3) : List (Option Nat) → List (Option Nat)
  | x :: y :: r => combOpt o t x y :: pairUp o t r
  | r => r

/-- The root of the tree (07 R206). -/
def redTree (o t : BitVec 3) (xs : List (Option Nat)) : Option Nat :=
  (pairUp o t (pairUp o t (pairUp o t (pairUp o t (pairUp o t xs))))).headD none

/-- One step of the scan by a distance (07 R207). -/
def scanStep (o t : BitVec 3) (y : List (Option Nat)) (d : Nat) : List (Option Nat) :=
  y.mapIdx fun i x => if d ≤ i then combOpt o t (y.getD (i - d) none) x else x

/-- The five steps of the scan (07 R207). -/
def redScan (o t : BitVec 3) (xs : List (Option Nat)) : List (Option Nat) := [1, 2, 4, 8, 16].foldl (scanStep o t) xs

/-- The identity of the exclusive scan (07 R207). -/
def redIdentity (o t : BitVec 3) : Nat :=
  let w := if redWide t then 64 else 32
  let signed := t == 0 || t == 2
  match o.toNat, redFmt t with
  | 1, none => if signed then pow2 (w - 1) - 1 else pow2 w - 1
  | 1, some f => f.infc.getD 0
  | 2, none => if signed then pow2 (w - 1) else 0
  | 2, some f => f.infc.getD 0 + pow2 (f.bits - 1)
  | 3, _ => pow2 w - 1
  | 6, some f => f.nanc.getD 0
  | 7, some f => f.nanc.getD 0
  | _, _ => 0

/-- A long-latency result of the active lanes: 32-bit or 64-bit elements by lane (03 R81). -/
def computeOut (c : Ctx) (px : Option Modw) (la : BitVec 4) (d : Nat) (wide : Bool) (x : Nat → Nat) : UnitRes :=
  let (id, s1) := c.s.fresh
  let ws := (activeLanes c px).flatMap fun i =>
    ({ reg := .v d, lane := i, val := BitVec.ofNat 32 (x i) } : RegWrite) ::
      (if wide then [{ reg := .v (d + 1), lane := i, val := BitVec.ofNat 32 (x i / pow2 32) }] else [])
  let regs := if wide then [RegRef.v d, .v (d + 1)] else [.v d]
  .done (addOut c s1 { newOut id .compute regs la.toNat c.f.pc with writes := ws })

/-- What VRED and VSCAN touch. -/
def redSpec (px : Option Modw) (d a : BitVec 7) (t : BitVec 3) (c : Ctx) : UnitSpec :=
  let n := if redWide t then 2 else 1
  { words := unitWords px, vs := vrs c d n ++ vrs c a n }

/-- VRED (R206). -/
def execVred (px : Option Modw) (d a : BitVec 7) (o t : BitVec 3) (l : BitVec 4) (s : State) : Host.Outcome State Fault Refusal :=
  runUnit s (redSpec px d a t) fun c =>
    let xs := redLeaves c px a t
    let r := if redExact (mw px) o t then redSum t xs else (redTree o t xs).getD 0
    computeOut c px l (vr c d) (redWide t) fun _ => r

/-- The inclusive scan's element of a lane (07 R205, R207). -/
def scanAt (m : Modw) (o t : BitVec 3) (xs : List (Option Nat)) (i : Nat) : Nat :=
  if redExact m o t then redSum t (xs.take (i + 1)) else ((redScan o t xs).getD i none).getD 0

/-- VSCAN, inclusive (R207). -/
def execVscan (px : Option Modw) (d a : BitVec 7) (o t : BitVec 3) (l : BitVec 4) (s : State) : Host.Outcome State Fault Refusal :=
  runUnit s (redSpec px d a t) fun c =>
    let xs := redLeaves c px a t
    computeOut c px l (vr c d) (redWide t) (scanAt (mw px) o t xs)

/-- VSCANX, exclusive (R207): the inclusive value of the highest active lane below. -/
def execVscanx (px : Option Modw) (d a : BitVec 7) (o t : BitVec 3) (l : BitVec 4) (s : State) : Host.Outcome State Fault Refusal :=
  runUnit s (redSpec px d a t) fun c =>
    let xs := redLeaves c px a t
    let ls := activeLanes c px
    computeOut c px l (vr c d) (redWide t) fun i =>
      match (ls.filter fun j => decide (j < i)).getLast? with
      | none => redIdentity o t
      | some h => scanAt (mw px) o t xs h

end Sys2Proof.Machine
end

