-- ==== Sys2Proof/Machine/VectorFloat.lean ====
section
/-!
DEFINITION. The vector floating-point instructions and the special functions (07 R196 to R201).
-/

namespace Sys2Proof.Machine

/-! ### Elements of 32 or 64 bits -/

/-- The format of a width bit: f32 or f64 (07 R196). -/
def fmtOf (w : BitVec 1) : FloatFmt := if w = 1 then fmtF64 else fmtF32

/-- Registers of an element: one or a pair. -/
def elemRegs (c : Ctx) (w : BitVec 1) (x : BitVec 7) : List Nat := vrs c x (if w = 1 then 2 else 1)

/-- The element of a vector or a pair at a lane. -/
def elemAt (c : Ctx) (w : BitVec 1) (x : BitVec 7) (i : Nat) : Nat := if w = 1 then (vget64 c x i).toNat else (vget c x i).toNat

/-- Writes elements to the listed lanes of a vector or a pair. -/
def putElems (g : Group) (w : BitVec 1) (r : Nat) (ls : List Nat) (f : Nat → Nat) : Group :=
  if w = 1 then g.setLanes64 r ls (fun i => BitVec.ofNat 64 (f i)) else g.setLanes r ls (fun i => BitVec.ofNat 32 (f i))

/-- What a float instruction of two sources touches. -/
def floatSpec (px : Option Modw) (w : BitVec 1) (d a b : BitVec 7) (c : Ctx) : UnitSpec :=
  { words := unitWords px, vs := elemRegs c w d ++ elemRegs c w a ++ elemRegs c w b }

/-- A float result in each active lane, from the codes of a, b and d (07 R196). -/
def floatOp (px : Option Modw) (w : BitVec 1) (d a b : BitVec 7) (f : Nat → Nat → Nat → Nat) (s : State) :
    Host.Outcome State Fault Refusal :=
  runUnit s (floatSpec px w d a b) fun c =>
    doneG c (putElems c.g w (vr c d) (activeLanes c px) fun i => f (elemAt c w a i) (elemAt c w b i) (elemAt c w d i))

/-! ### The operations on codes, shared by VFALU, VFMA and VHALF (07 R196, R197, R200) -/

/-- The sum or difference of two codes after the modifiers, through the tail. -/
def codeAdd (f : FloatFmt) (m : Modw) (sub : Bool) (x y : Nat) : Nat :=
  let b := f.decode (modB f m y)
  tailFloat f m (Num.add (m.rnd == 2) (f.decode (modA f m x)) (if sub then b.neg else b))

/-- The product through the tail. -/
def codeMul (f : FloatFmt) (m : Modw) (x y : Nat) : Nat := tailFloat f m (Num.mul (f.decode (modA f m x)) (f.decode (modB f m y)))

/-- The product and sum through the tail, with one rounding. -/
def codeFma (f : FloatFmt) (m : Modw) (x y z : Nat) : Nat :=
  tailFloat f m (Num.add (m.rnd == 2) (Num.mul (f.decode (modA f m x)) (f.decode (modB f m y))) (f.decode z))

/-- VFSGN: the sign of b on the other bits of a. -/
def codeSign (f : FloatFmt) (x y : Nat) : Nat := x % pow2 (f.bits - 1) + (y / pow2 (f.bits - 1)) % 2 * pow2 (f.bits - 1)

/-- VFADD (R196). -/
def execVfadd (px : Option Modw) (d a b : BitVec 7) (w : BitVec 1) (s : State) :
    Host.Outcome State Fault Refusal :=
  floatOp px w d a b (fun x y _ => codeAdd (fmtOf w) (mw px) false x y) s

/-- VFSUB (R196). -/
def execVfsub (px : Option Modw) (d a b : BitVec 7) (w : BitVec 1) (s : State) :
    Host.Outcome State Fault Refusal :=
  floatOp px w d a b (fun x y _ => codeAdd (fmtOf w) (mw px) true x y) s

/-- VFMUL (R196). -/
def execVfmul (px : Option Modw) (d a b : BitVec 7) (w : BitVec 1) (s : State) :
    Host.Outcome State Fault Refusal :=
  floatOp px w d a b (fun x y _ => codeMul (fmtOf w) (mw px) x y) s

/-- VFMIN (R196): a NaN gives the canonical NaN; bits are kept. -/
def execVfmin (px : Option Modw) (d a b : BitVec 7) (w : BitVec 1) (s : State) :
    Host.Outcome State Fault Refusal :=
  floatOp px w d a b (fun x y _ => (fmtOf w).minCode (modA (fmtOf w) (mw px) x) (modB (fmtOf w) (mw px) y)) s

/-- VFMAX (R196). -/
def execVfmax (px : Option Modw) (d a b : BitVec 7) (w : BitVec 1) (s : State) :
    Host.Outcome State Fault Refusal :=
  floatOp px w d a b (fun x y _ => (fmtOf w).maxCode (modA (fmtOf w) (mw px) x) (modB (fmtOf w) (mw px) y)) s

/-- VFMINN (R196): one NaN gives the other operand. -/
def execVfminn (px : Option Modw) (d a b : BitVec 7) (w : BitVec 1) (s : State) :
    Host.Outcome State Fault Refusal :=
  floatOp px w d a b (fun x y _ => (fmtOf w).minnCode false (modA (fmtOf w) (mw px) x) (modB (fmtOf w) (mw px) y)) s

/-- VFMAXN (R196). -/
def execVfmaxn (px : Option Modw) (d a b : BitVec 7) (w : BitVec 1) (s : State) :
    Host.Outcome State Fault Refusal :=
  floatOp px w d a b (fun x y _ => (fmtOf w).minnCode true (modA (fmtOf w) (mw px) x) (modB (fmtOf w) (mw px) y)) s

/-- VFSGN (R196): copies bits and keeps NaN payloads. -/
def execVfsgn (px : Option Modw) (d a b : BitVec 7) (w : BitVec 1) (s : State) :
    Host.Outcome State Fault Refusal :=
  floatOp px w d a b (fun x y _ => codeSign (fmtOf w) x y) s

/-- VFMA (R197): v[d] is the addend. -/
def execVfma (px : Option Modw) (d a b : BitVec 7) (w : BitVec 1) (s : State) :
    Host.Outcome State Fault Refusal :=
  floatOp px w d a b (fun x y z => codeFma (fmtOf w) (mw px) x y z) s

/-- VFSETP (R198). -/
def execVfsetp (px : Option Modw) (d : BitVec 4) (a b : BitVec 7) (w : BitVec 1) (r : BitVec 3) (s : State) :
    Host.Outcome State Fault Refusal :=
  runUnit s (fun c => { words := unitWords px, vs := elemRegs c w a ++ elemRegs c w b }) fun c =>
    doneG c (setPred c.g d (activeLanes c px) fun i =>
      floatRel (fmtOf w) r (modA (fmtOf w) (mw px) (elemAt c w a i)) (modB (fmtOf w) (mw px) (elemAt c w b i)))

/-- The format VFCLASS classifies (07 R199). -/
def classFmt (t : BitVec 2) : FloatFmt :=
  match t.toNat with | 0 => fmtF32 | 1 => fmtF64 | 2 => fmtF16 | _ => fmtBf16

/-- VFCLASS (R199). -/
def execVfclass (px : Option Modw) (d a : BitVec 7) (t : BitVec 2) (s : State) : Host.Outcome State Fault Refusal :=
  let w : BitVec 1 := if t = 1 then 1 else 0
  runUnit s (fun c => { words := unitWords px, vs := vr c d :: elemRegs c w a }) fun c =>
    doneG c (c.g.setLanes (vr c d) (activeLanes c px) fun i => classWord (classFmt t) (elemAt c w a i))

/-! ### Packed halves (07 R200) -/

/-- The format of VHALF: f16 or bf16. -/
def halfFmt (w : BitVec 1) : FloatFmt := if w = 1 then fmtBf16 else fmtF16

/-- A function of 16-bit codes on both halves of a lane, with the destination's halves as third operands. -/
def onHalves (f : Nat → Nat → Nat → Nat) (x y z : Word) : Word :=
  let lo := fun (v : Word) => v.toNat % pow2 16
  let hi := fun (v : Word) => v.toNat / pow2 16
  BitVec.ofNat 32 (f (lo x) (lo y) (lo z) % pow2 16 + pow2 16 * (f (hi x) (hi y) (hi z) % pow2 16))

/-- A packed half result (07 R200). -/
def halfOp (px : Option Modw) (d a b : BitVec 7) (f : Nat → Nat → Nat → Nat) (s : State) : Host.Outcome State Fault Refusal :=
  runUnit s (floatSpec px 0 d a b) fun c =>
    doneG c (c.g.setLanes (vr c d) (activeLanes c px) fun i => onHalves f (vget c a i) (vget c b i) (vget c d i))

/-- VHADD (R200). -/
def execVhadd (px : Option Modw) (d a b : BitVec 7) (w : BitVec 1) (s : State) :
    Host.Outcome State Fault Refusal :=
  halfOp px d a b (fun x y _ => codeAdd (halfFmt w) (mw px) false x y) s

/-- VHSUB (R200). -/
def execVhsub (px : Option Modw) (d a b : BitVec 7) (w : BitVec 1) (s : State) :
    Host.Outcome State Fault Refusal :=
  halfOp px d a b (fun x y _ => codeAdd (halfFmt w) (mw px) true x y) s

/-- VHMUL (R200). -/
def execVhmul (px : Option Modw) (d a b : BitVec 7) (w : BitVec 1) (s : State) :
    Host.Outcome State Fault Refusal :=
  halfOp px d a b (fun x y _ => codeMul (halfFmt w) (mw px) x y) s

/-- VHFMA (R200). -/
def execVhfma (px : Option Modw) (d a b : BitVec 7) (w : BitVec 1) (s : State) :
    Host.Outcome State Fault Refusal :=
  halfOp px d a b (fun x y z => codeFma (halfFmt w) (mw px) x y z) s

/-- VHMIN (R200). -/
def execVhmin (px : Option Modw) (d a b : BitVec 7) (w : BitVec 1) (s : State) :
    Host.Outcome State Fault Refusal :=
  halfOp px d a b (fun x y _ => (halfFmt w).minCode (modA (halfFmt w) (mw px) x) (modB (halfFmt w) (mw px) y)) s

/-- VHMAX (R200). -/
def execVhmax (px : Option Modw) (d a b : BitVec 7) (w : BitVec 1) (s : State) :
    Host.Outcome State Fault Refusal :=
  halfOp px d a b (fun x y _ => (halfFmt w).maxCode (modA (halfFmt w) (mw px) x) (modB (halfFmt w) (mw px) y)) s

/-! ### Special functions (07 R201) -/

/-- The exact value of a special function, or an approximation far finer than any bound; or the result where it is fixed. -/
inductive Special where
  | fixed (x : Num)
  | near (x : Num)
  deriving DecidableEq, Repr

/-- ln of m in [1, 2), as a fixed-point number: twice the series of artanh((m - 1) / (m + 1)). -/
def fxLnSum (z2 : Nat) : Nat → Nat → Nat → Nat
  | 0, _, _ => 0
  | n + 1, k, term => term / (2 * k + 1) + fxLnSum z2 n (k + 1) (fxMul term z2)

/-- log2 of m * 2^e for m > 0: exact for a power of two. -/
def log2Num (m : Nat) (e : Int) : Special :=
  let n := bitLen m - 1
  let k : Int := e + (n : Int)
  if m = pow2 n then .fixed (Num.ofInt k)
  else
    let x := (m <<< fxBits) >>> n
    let one := pow2 fxBits
    let z := ((x - one) <<< fxBits) / (x + one)
    let ln := 2 * fxLnSum (fxMul z z) 120 0 z
    .near (numOfFx (k * (one : Int) + (((ln <<< fxBits) / fxLn2 : Nat) : Int)))

/-- x ^ 32 by squaring, in fixed point. -/
def fxPow32 (x : Nat) : Nat :=
  let a := fxMul x x
  let b := fxMul a a
  let c := fxMul b b
  let d := fxMul c c
  fxMul d d

/-- tanh of a magnitude below 9: (E - 1) / (E + 1) with E = e^(2x). -/
def tanhNum (neg : Bool) (m : Nat) (e : Int) : Num :=
  let one := pow2 fxBits
  let big := fxPow32 (fxExp (fxOfMag m (e - 4)))
  let t : Int := ((((big - one) <<< fxBits) / (big + one) : Nat) : Int)
  numOfFx (if neg then -t else t)

/-- Sine and cosine of an argument in revolutions: exact at multiples of 1/4. -/
def turnNum (cosine neg : Bool) (m : Nat) (e : Int) : Special :=
  let f := fxOfMag m e % pow2 fxBits
  let q := 4 * f / pow2 fxBits
  if 4 * f % pow2 fxBits = 0 then
    .fixed (Num.ofInt (
      if cosine then (if q = 0 then 1 else if q = 2 then -1 else 0)
      else if q = 1 then (if neg then -1 else 1) else if q = 3 then (if neg then 1 else -1) else 0))
  else
    let t := fxTurn cosine f
    .near (numOfFx (if neg && !cosine then -t else t))

/-- A special function of an f32 operand (07 R201): functions 0 to 7 in the order of their codes. -/
def specialNum (fn : Nat) (x : Num) : Special :=
  match fn, x with
  | _, .nan => .fixed .nan
  | 0, .inf n => .fixed (Num.zero n)
  | 0, .fin n m e => if m = 0 then .fixed (.inf n) else .near (recipNum n m e)
  | 1, .inf n => .fixed (if n then .nan else Num.zero false)
  | 1, .fin n m e =>
    if m = 0 then .fixed (.inf n) else if n then .fixed .nan
    else match recipNum false m e with | .fin _ m' e' => .near (sqrtNum m' e') | y => .fixed y
  | 2, .inf n => .fixed (if n then .nan else .inf false)
  | 2, .fin n m e => if m = 0 then .fixed (Num.zero n) else if n then .fixed .nan else .fixed (sqrtNum m e)
  | 3, .inf n => .fixed (if n then Num.zero false else .inf false)
  | 3, .fin n m e =>
    let y := exp2Num n m e
    if m = 0 || decide (0 ≤ e) || m % pow2 (-e).toNat == 0 then .fixed y else .near y
  | 4, .inf n => .fixed (if n then .nan else .inf false)
  | 4, .fin n m e => if m = 0 then .fixed (.inf true) else if n then .fixed .nan else log2Num m e
  | 5, .fin n m e => if m = 0 then .fixed (Num.zero n) else turnNum false n m e
  | 6, .fin n m e => if m = 0 then .fixed (Num.ofInt 1) else turnNum true n m e
  | 7, .inf n => .fixed (Num.ofInt (if n then -1 else 1))
  | 7, .fin n m e =>
    if m = 0 then .fixed (Num.zero n)
    else if Num.lt (.fin false m e) (Num.ofInt 9) then .near (tanhNum n m e)
    else .fixed (Num.ofInt (if n then -1 else 1))
  | _, _ => .fixed .nan

/-- One unit in the last place of f32 at a number. -/
def ulpF32 (x : Num) : Num :=
  match x with
  | .fin _ m e => Num.twoPow (max (-149) (e + (bitLen m : Int) - 1 - 23))
  | y => y

/-- Whether a result lies within the bound of its function (07 R201): below 1 ulp for VFRCP and VFRSQ, 2 ulp for VFEXP2 and VFLOG2 or
2^-22 for VFLOG2 of [0.5, 2], 2^-22 for the others. -/
def withinBound (fn : Nat) (x exact result : Num) : Bool :=
  let err := match Num.add false result exact.neg with | .fin _ m e => Num.fin false m e | y => y
  let le := fun (b : Num) => err.isFinite && !(Num.lt b err)
  match fn with
  | 0 => err.isFinite && Num.lt err (ulpF32 exact)
  | 1 => err.isFinite && Num.lt err (ulpF32 exact)
  | 3 => le ((ulpF32 exact).scale 1)
  | 4 => le ((ulpF32 exact).scale 1) ||
      (!(Num.lt x (Num.twoPow (-1))) && !(Num.lt (Num.ofInt 2) x) && le (Num.twoPow (-22)))
  | _ => le (Num.twoPow (-22))

/-- The result of a special function: fixed where the spec fixes it; elsewhere the table's value, a free value that the bound limits,
which counts only when it lies within the bound (07 R201); a result that overflows is +inf. -/
def specialF32 (fn : Nat) (w : Word) : Word :=
  let x := fmtF32.decode w.toNat
  match specialNum fn x with
  | .fixed y => f32OfNum y
  | .near y =>
    let free := Config.special fn w
    let r := f32OfNum y
    if (numOfF32 r).isInf then 0x7F800000#32
    else if withinBound fn x y (numOfF32 free) then free else r

/-- A VFSFU function of the active lanes, long-latency (07 R201). -/
def sfuOp (fn : Nat) (px : Option Modw) (d a : BitVec 7) (l : BitVec 4) (s : State) : Host.Outcome State Fault Refusal :=
  runUnit s (fun c => { words := unitWords px, vs := [vr c d, vr c a] }) fun c =>
    computeOut c px l (vr c d) false fun i => (specialF32 fn (BitVec.ofNat 32 (modA fmtF32 (mw px) (vget c a i).toNat))).toNat

/-- VFRCP (R201). -/
def execVfrcp (px : Option Modw) (d a : BitVec 7) (l : BitVec 4) (s : State) :
    Host.Outcome State Fault Refusal :=
  sfuOp 0 px d a l s

/-- VFRSQ (R201). -/
def execVfrsq (px : Option Modw) (d a : BitVec 7) (l : BitVec 4) (s : State) :
    Host.Outcome State Fault Refusal :=
  sfuOp 1 px d a l s

/-- VFSQRT (R201). -/
def execVfsqrt (px : Option Modw) (d a : BitVec 7) (l : BitVec 4) (s : State) :
    Host.Outcome State Fault Refusal :=
  sfuOp 2 px d a l s

/-- VFEXP2 (R201). -/
def execVfexp2 (px : Option Modw) (d a : BitVec 7) (l : BitVec 4) (s : State) :
    Host.Outcome State Fault Refusal :=
  sfuOp 3 px d a l s

/-- VFLOG2 (R201). -/
def execVflog2 (px : Option Modw) (d a : BitVec 7) (l : BitVec 4) (s : State) :
    Host.Outcome State Fault Refusal :=
  sfuOp 4 px d a l s

/-- VFSIN (R201). -/
def execVfsin (px : Option Modw) (d a : BitVec 7) (l : BitVec 4) (s : State) :
    Host.Outcome State Fault Refusal :=
  sfuOp 5 px d a l s

/-- VFCOS (R201). -/
def execVfcos (px : Option Modw) (d a : BitVec 7) (l : BitVec 4) (s : State) :
    Host.Outcome State Fault Refusal :=
  sfuOp 6 px d a l s

/-- VFTANH (R201). -/
def execVftanh (px : Option Modw) (d a : BitVec 7) (l : BitVec 4) (s : State) :
    Host.Outcome State Fault Refusal :=
  sfuOp 7 px d a l s

end Sys2Proof.Machine
end

