-- ==== Sys2Proof/WellFormed.lean ====
section
/-!
DEFINITION. Which instructions are well formed: the prefix fields each entry honours (03 R76, R78), and the limits of its
fields that the encoding itself does not enforce (03 R61, R84 and the encoding tables of the instruction chapters).
-/

namespace Sys2Proof

/-- The MODW fields an entry honours (03 R76): the others must stand at their defaults. -/
structure Honours where
  guard : Bool := false
  sat   : Bool := false
  nega  : Bool := false
  negb  : Bool := false
  absa  : Bool := false
  absb  : Bool := false
  psc   : Bool := false
  str   : Bool := false
  scope : Bool := false
  rnd   : Bool := false
  clamp : Bool := false
  deriving DecidableEq, Repr

/-- A MODW sets no field to a non-default value that the entry does not honour (03 R76). -/
def Modw.within (m : Modw) (h : Honours) : Bool :=
  (h.guard || (m.guard == 0 && !m.gneg)) && (h.sat || !m.sat) && (h.nega || !m.nega) && (h.negb || !m.negb) &&
  (h.absa || !m.absa) && (h.absb || !m.absb) && (h.psc || m.psc == 0) && (h.str || m.str == 0) &&
  (h.scope || m.scope == 0) && (h.rnd || m.rnd == 0) && (h.clamp || !m.clamp)

/-- The MXW fields a matrix command honours beside the guard, which each honours (03 R78). -/
structure MxwHonours where
  neg  : Bool := false
  nacc : Bool := false
  rel  : Bool := false
  post : Bool := false
  deriving DecidableEq, Repr

/-- An MXW sets no field to a non-default value that the command does not honour (03 R78). -/
def Mxw.within (m : Mxw) (h : MxwHonours) : Bool :=
  (h.neg || (!m.nega && !m.negb)) && (h.nacc || !m.nacc) && (h.rel || m.rel == 0) &&
  (h.post || (!m.bias && !m.act && m.atab == 0 && !m.rq))

/-- An instruction with an encoding; the rest of the constructors are events. -/
def Instr.isEncoded : Instr → Bool
  | .powerOnReset | .deviceFunctionReset | .bringUpStageAdvance _ _ | .firmwareUpdateWrite _
  | .attestationNonceWrite _ | .partitionAssign _ | .registerWrite _ _ _ | .preEmpt _ | .drainComplete _
  | .swapBegin _ | .swapGraceExpiry _ | .contextExchange _ | .resetDeadlineExpiry _ | .spill _ | .fill _
  | .invalidate _ | .snapAllow _ _ | .run _ | .launchSubmit _ _ _ | .faultAnswer _ _ _ | .faultConsumedWrite _ _
  | .errorConsumedWrite _ _ | .orreryTakeRecord _ _ | .queueFencePass _ _ | .teamPlacement _ _ _
  | .gangSetPlacement _ _ _ | .gridRetirement _ _ | .fragmentPromotion _ _ | .teamEviction _ | .relaunchPlacement _ _
  | .forcedEviction _ | .forcedStopDeadline _ | .fragmentFusion _ _ | .resultLanding _ _ _
  | .objcallReplyLanding _ _ _ | .atomReplyLanding _ _ _ | .homeRequestArrival _ _ | .combiningWindowExpiry _ _
  | .batchStart _ _ | .fastPathBatch _ | .bindRequest _ | .unbindRequest _ | .alloc _ | .share _ | .release _
  | .append _ | .feedStart _ _ | .streamTileDelivery _ _ | .deferredDataFetch _ _ | .copy _ _ | .gather _ _
  | .scatter _ _ | .scatred _ _ | .transpose _ _ | .convert _ _ | .pad _ _ | .migrate _ _ | .matrixEngineStart _ _
  | .rendezvousTimeout _ | .mwaitRelease _ _ | .barrierWaitRelease _ _ | .waitvRelease _ _ | .tier1WaitvPoll _ _
  | .phaseStart _ _ | .phaseCommit _ _ | .quantumEnd _ | .ephemerisDeadlock _ _ | .homeLogicalTimeApply _
  | .abajaFlitReceive _ _ | .flitRetransmitTimeout _ | .pause _ _ | .resume _ _ | .portTraining _ _ _
  | .remoteRequestArrival _ | .hostCxlAccess _ _ _ _ | .poolAccessTimeout _ | .allgather _ _ _ | .redscat _ _ _
  | .allred _ _ _ | .bcast _ _ _ | .collectiveTimeout _ _ | .snapshotTrigger _ | .snapin | .snapshotLatch
  | .snapshotRelease _ | .fillCommand _ _ | .undefinedEncoding | .powerLoss => false
  | _ => true

/-- The MODW of the unit, for an instruction that accepts one (03 R76). -/
def Instr.modw : Instr → Option Modw
  | .vadd px _ _ _ | .vsub px _ _ _ | .vmul px _ _ _ | .vmulhu px _ _ _ | .vmulhs px _ _ _ | .vand px _ _ _
  | .vor px _ _ _ | .vxor px _ _ _ | .vshl px _ _ _ | .vshr px _ _ _ | .vsra px _ _ _ | .vmin px _ _ _
  | .vmax px _ _ _ | .vminu px _ _ _ | .vmaxu px _ _ _ | .vandn px _ _ _ | .vaddh2 px _ _ _ | .vsubh2 px _ _ _
  | .vmulh2 px _ _ _ | .vminh2 px _ _ _ | .vmaxh2 px _ _ _ | .vminuh2 px _ _ _ | .vmaxuh2 px _ _ _ | .vmad px _ _ _ _
  | .vaddi px _ _ _ | .vandi px _ _ _ | .vshli px _ _ _ | .vshri px _ _ _ | .vsrai px _ _ _ | .vclz px _ _
  | .vpopc px _ _ | .vbrev px _ _ | .vmov px _ _ | .vnot px _ _ | .viabs px _ _ | .vineg px _ _ | .vbfeu px _ _ _
  | .vbfes px _ _ _ | .vbfi px _ _ _ | .vpermb px _ _ _ | .vpermbN4 px _ _ _ | .vsetp px _ _ _ _ | .vsel px _ _ _ _
  | .vmovs px _ _ | .vins px _ _ _ | .vlane px _ | .vmovxr px _ _ | .vmovxw px _ _ | .vfadd px _ _ _ _
  | .vfsub px _ _ _ _ | .vfmul px _ _ _ _ | .vfmin px _ _ _ _ | .vfmax px _ _ _ _ | .vfminn px _ _ _ _
  | .vfmaxn px _ _ _ _ | .vfsgn px _ _ _ _ | .vfma px _ _ _ _ | .vfsetp px _ _ _ _ _ | .vfrcp px _ _ _
  | .vfrsq px _ _ _ | .vfsqrt px _ _ _ | .vfexp2 px _ _ _ | .vflog2 px _ _ _ | .vfsin px _ _ _ | .vfcos px _ _ _
  | .vftanh px _ _ _ | .vcvt px _ _ _ | .vfclass px _ _ _ | .vhadd px _ _ _ _ | .vhsub px _ _ _ _ | .vhmul px _ _ _ _
  | .vhfma px _ _ _ _ | .vhmin px _ _ _ _ | .vhmax px _ _ _ _ | .vdot px _ _ _ _ | .vunpk px _ _ _ _
  | .vpack px _ _ _ _ | .vqnt px _ _ _ _ | .vqntScale px _ _ _ | .rngc px _ _ _ _ | .vconf px _ _ _ | .vshfl px _ _ _
  | .vshflx px _ _ _ | .vshflu px _ _ _ | .vshfld px _ _ _ | .vred px _ _ _ _ _ | .vscan px _ _ _ _ _
  | .vscanx px _ _ _ _ _ | .pand px _ _ _ | .por px _ _ _ | .pxor px _ _ _ | .pandn px _ _ _ | .porn px _ _ _
  | .pnot px _ _ | .pfroms px _ _ | .pany px _ _ | .pall px _ _ | .pfirst px _ _ | .ld8u px _ _ _ _ _
  | .ld8s px _ _ _ _ _ | .ld16u px _ _ _ _ _ | .ld16s px _ _ _ _ _ | .ld32 px _ _ _ _ _ | .ld64 px _ _ _ _ _
  | .ld128 px _ _ _ _ _ | .st8 px _ _ _ _ _ _ | .st16 px _ _ _ _ _ _ | .st32 px _ _ _ _ _ _ | .st64 px _ _ _ _ _ _
  | .st128 px _ _ _ _ _ _ | .lds32 px _ _ _ _ | .lds64 px _ _ _ _ | .lds128 px _ _ _ _ | .sts32 px _ _ _
  | .sts64 px _ _ _ | .sts128 px _ _ _ | .pld px _ _ _ _ _ | .pst px _ _ _ | .atom px _ _ _ _ _ | .red px _ _ _ _
  | .objcall px _ _ _ _ | .objpost px _ _ _ | .waitv px _ _ _ _ | .bara px _ _ | .barw px _ _ | .baraw px _ _
  | .bari px _ _ | .fenceAcq px | .fenceRel px | .fenceFull px | .xfenceAcq px _ | .xfenceRel px _ | .xfenceFull px _
  | .deq px _ _ _ | .enq px _ _ | .deqt px _ _ _ | .launch px _ _ _ | .launchi px _ _ _ | .cwait px _ | .mwait px _
  | .mlbl px _ _ | .mstatMax px _ _ | .mstatSum px _ _ | .mstatFlags px _ _ | .mstatSkip px _ _ | .hbind px _ _ _
  | .feed px _ _ _ _ _ | .feedWb px _ _ _ _ _ | .cpy px _ _ _ | .qwait px _ _ | .coll px _ _ _ | .paddc px _ _ _ _ => px
  | _ => none

/-- The MXW of the unit, for a matrix command (03 R78). -/
def Instr.mxw : Instr → Option Mxw
  | .mma px _ _ _ _ | .mmaGang px _ _ _ _ | .mmas px _ _ _ _ | .mmap px _ _ _ | .mtr px _ _ _ _ | .mzero px _
  | .mlda px _ | .msta px _ | .mnorm px _ => px
  | _ => none

/-- The IMMX payload that completes a format I value immediate: its bits [20:0] (03 R79). -/
def Imm11.immx : Imm11 → Option (BitVec 25)
  | .short _ => none
  | .long v => some (0#4 ++ v.extractLsb' 11 21)

/-- The IMMX payload that completes a format L value immediate: its bits [13:0] (03 R79). -/
def Imm18.immx : Imm18 → Option (BitVec 25)
  | .short _ => none
  | .long v => some (0#11 ++ v.extractLsb' 18 14)

/-- The IMMX payload of the unit, for the seven instructions that accept one (03 R80). -/
def Instr.immx : Instr → Option (BitVec 25)
  | .saddi _ _ i | .sandi _ _ i | .sori _ _ i | .sxori _ _ i | .sli _ i | .vaddi _ _ _ i | .vandi _ _ _ i => i.immx
  | _ => none

/-- The MODW fields each entry honours (the "MODW honoured" columns of the encoding tables).  For VCVT, VDOT, VRED, VSCAN
and the stores the fields depend on the form (07 R205, 08 R227, 09 R239, R243). -/
def Instr.honours : Instr → Honours
  | .vcvt _ _ _ c => if c = 0x0D then { guard := true, psc := true }
      else { guard := true, sat := true, psc := true, rnd := true }
  | .vdot _ _ _ _ f => if f.toNat < 4 then { guard := true, sat := true }
      else { guard := true, sat := true, nega := true, psc := true, rnd := true, clamp := true }
  | .vred _ _ _ o t _ | .vscan _ _ _ o t _ | .vscanx _ _ _ o t _ =>
      { guard := true, sat := o == 0 && t.toNat < 4 }
  | .st8 _ _ _ _ _ _ r | .st16 _ _ _ _ _ _ r | .st32 _ _ _ _ _ _ r | .st64 _ _ _ _ _ _ r | .st128 _ _ _ _ _ _ r =>
      { guard := true, str := true, scope := r == 1 }
  | .vadd _ _ _ _ | .vsub _ _ _ _ | .vmul _ _ _ _ => 
      { guard := true, sat := true, nega := true, negb := true, absa := true, absb := true, psc := true, rnd := true }
  | .vmulhu _ _ _ _ | .vmulhs _ _ _ _ | .vand _ _ _ _ | .vor _ _ _ _ | .vxor _ _ _ _ | .vshl _ _ _ _ | .vshr _ _ _ _
  | .vsra _ _ _ _ | .vmin _ _ _ _ | .vmax _ _ _ _ | .vminu _ _ _ _ | .vmaxu _ _ _ _ | .vandn _ _ _ _
  | .vminh2 _ _ _ _ | .vmaxh2 _ _ _ _ | .vminuh2 _ _ _ _ | .vmaxuh2 _ _ _ _ | .vandi _ _ _ _ | .vshli _ _ _ _
  | .vshri _ _ _ _ | .vsrai _ _ _ _ | .vclz _ _ _ | .vpopc _ _ _ | .vbrev _ _ _ | .vmov _ _ _ | .vnot _ _ _
  | .vbfeu _ _ _ _ | .vbfes _ _ _ _ | .vbfi _ _ _ _ | .vpermb _ _ _ _ | .vpermbN4 _ _ _ _ | .vsetp _ _ _ _ _
  | .vsel _ _ _ _ _ | .vmovs _ _ _ | .vins _ _ _ _ | .vlane _ _ | .vmovxr _ _ _ | .vmovxw _ _ _ | .vfsgn _ _ _ _ _
  | .vfclass _ _ _ _ | .vqntScale _ _ _ _ | .rngc _ _ _ _ _ | .vconf _ _ _ _ | .vshfl _ _ _ _ | .vshflx _ _ _ _
  | .vshflu _ _ _ _ | .vshfld _ _ _ _ | .pand _ _ _ _ | .por _ _ _ _ | .pxor _ _ _ _ | .pandn _ _ _ _ | .porn _ _ _ _
  | .pnot _ _ _ | .pfroms _ _ _ | .pany _ _ _ | .pall _ _ _ | .pfirst _ _ _ | .mstatMax _ _ _ | .mstatSum _ _ _
  | .mstatFlags _ _ _ | .mstatSkip _ _ _ => 
      { guard := true }
  | .vaddh2 _ _ _ _ | .vsubh2 _ _ _ _ | .vmulh2 _ _ _ _ | .vaddi _ _ _ _ | .viabs _ _ _ | .vineg _ _ _
  | .vqnt _ _ _ _ _ => 
      { guard := true, sat := true }
  | .vmad _ _ _ _ _ => 
      { guard := true, sat := true, nega := true, negb := true, psc := true, rnd := true }
  | .vfadd _ _ _ _ _ | .vfsub _ _ _ _ _ | .vfmul _ _ _ _ _ | .vfma _ _ _ _ _ | .vhadd _ _ _ _ _ | .vhsub _ _ _ _ _
  | .vhmul _ _ _ _ _ | .vhfma _ _ _ _ _ => 
      { guard := true, sat := true, nega := true, negb := true, absa := true, absb := true, psc := true, rnd := true, clamp := true }
  | .vfmin _ _ _ _ _ | .vfmax _ _ _ _ _ | .vfminn _ _ _ _ _ | .vfmaxn _ _ _ _ _ | .vfsetp _ _ _ _ _ _
  | .vhmin _ _ _ _ _ | .vhmax _ _ _ _ _ => 
      { guard := true, nega := true, negb := true, absa := true, absb := true }
  | .vfrcp _ _ _ _ | .vfrsq _ _ _ _ | .vfsqrt _ _ _ _ | .vfexp2 _ _ _ _ | .vflog2 _ _ _ _ | .vfsin _ _ _ _
  | .vfcos _ _ _ _ | .vftanh _ _ _ _ => 
      { guard := true, nega := true, absa := true }
  | .vunpk _ _ _ _ _ | .vpack _ _ _ _ _ => 
      { guard := true, sat := true, rnd := true }
  | .ld8u _ _ _ _ _ _ | .ld8s _ _ _ _ _ _ | .ld16u _ _ _ _ _ _ | .ld16s _ _ _ _ _ _ | .ld32 _ _ _ _ _ _
  | .ld64 _ _ _ _ _ _ | .ld128 _ _ _ _ _ _ | .lds32 _ _ _ _ _ | .lds64 _ _ _ _ _ | .lds128 _ _ _ _ _ | .sts32 _ _ _ _
  | .sts64 _ _ _ _ | .sts128 _ _ _ _ | .pld _ _ _ _ _ _ | .pst _ _ _ _ | .atom _ _ _ _ _ _ | .red _ _ _ _ _
  | .objcall _ _ _ _ _ | .objpost _ _ _ _ | .enq _ _ _ => 
      { guard := true, str := true }
  | .waitv _ _ _ _ _ | .fenceAcq _ | .fenceRel _ | .fenceFull _ => 
      { str := true, scope := true }
  | .bara _ _ _ | .barw _ _ _ | .baraw _ _ _ | .bari _ _ _ | .deq _ _ _ _ | .deqt _ _ _ _ | .launch _ _ _ _
  | .launchi _ _ _ _ | .cwait _ _ | .mwait _ _ | .mlbl _ _ _ | .hbind _ _ _ _ | .feed _ _ _ _ _ _
  | .feedWb _ _ _ _ _ _ | .cpy _ _ _ _ | .qwait _ _ _ | .coll _ _ _ _ | .paddc _ _ _ _ _ => 
      { str := true }
  | .xfenceAcq _ _ | .xfenceRel _ _ | .xfenceFull _ _ => 
      { scope := true }
  | _ => {}

/-- The MXW fields each matrix command honours (14 and 15, the encoding tables). -/
def Instr.mxwHonours : Instr → MxwHonours
  | .mma .. | .mmaGang .. => { neg := true, nacc := true, rel := true }
  | .mtr .. => { post := true }
  | .mmas .. => { nacc := true, rel := true }
  | .mmap .. => { nacc := true }
  | _ => {}

/-- A field that names the first register of a vector pair: 0 to 126 (03 R61). -/
def pairOk (r : BitVec 7) : Bool := r.toNat ≤ 126

/-- A field that names the first register of a vector quad: 0 to 124 (08, LD and ST encodings). -/
def quadOk (r : BitVec 7) : Bool := r.toNat ≤ 124

/-- The memory base of LD and ST: an even scalar, or, with a[6] set, a[5:0] zero and the vector pair b (03 R61). -/
def baseOk (am : BitVec 1) (a : BitVec 6) (b : BitVec 7) : Bool :=
  if am = 1 then a == 0 && pairOk b else a.toNat % 2 == 0

/-- How many registers a VCVT code gives its destination and its source; none for a code without an entry (09 R238). -/
def vcvtShape (c : BitVec 7) : Option (Nat × Nat) :=
  match c.toNat with
  | 0x00 | 0x19 | 0x1E | 0x1F => some (2, 1)
  | 0x01 | 0x18 => some (1, 2)
  | 0x14 | 0x15 | 0x16 | 0x17 => some (2, 2)
  | 0x02 | 0x03 | 0x04 | 0x05 | 0x06 | 0x07 | 0x08 | 0x09 | 0x0A | 0x0B | 0x0C | 0x0D
  | 0x10 | 0x11 | 0x12 | 0x13 | 0x1A | 0x1B | 0x1C | 0x1D => some (1, 1)
  | _ => none

/-- The fields of a VCVT: a code with an entry, and pairs in range (09 R238). -/
def vcvtOk (c d a : BitVec 7) : Bool :=
  match vcvtShape c with
  | none => false
  | some (nd, na) => (nd == 1 || pairOk d) && (na == 1 || pairOk a)

/-- The op and type of VRED and VSCAN: no bitwise op on a float type, no MINN or MAXN on an integer type, types 0 to 5, and
the 64-bit types on pairs (07 R204). -/
def redOk (o t : BitVec 3) (d a : BitVec 7) : Bool :=
  let isFloat := t.toNat == 4 || t.toNat == 5
  let wide := t.toNat == 2 || t.toNat == 3 || t.toNat == 5
  t.toNat ≤ 5 && (if 3 ≤ o.toNat && o.toNat ≤ 5 then !isFloat else if 6 ≤ o.toNat then isFloat else true) &&
  (!wide || (pairOk d && pairOk a))

/-- The legal operation and type pairs of ATOM and RED (12 R308). -/
def atomOk (o : BitVec 4) (t : BitVec 3) : Bool :=
  match o.toNat with
  | 0 | 1 | 2 | 6 => true
  | 3 | 4 | 5 => t.toNat < 4
  | 7 => t.toNat < 2
  | 8 | 9 => t.toNat == 1
  | 10 => t.toNat == 3
  | _ => false

/-- The width in bits of a system register, or none for a number that is not assigned (06 R179). -/
def sysBits (n : Nat) : Option Nat :=
  if n = 0x008 || n = 0x014 || n = 0x016 || n = 0x01A then some 64
  else if n ≤ 0x007 || (0x00A ≤ n && n ≤ 0x013) || n = 0x018 || n = 0x019 then some 32
  else none

/-- A scalar register of SRSYS or SWSYS for a system register: even for a 64-bit one (06 R179). -/
def sysOk (n : BitVec 11) (r : BitVec 6) : Bool :=
  match sysBits n.toNat with
  | none => false
  | some w => w == 32 || r.toNat % 2 == 0

/-- The limits of each entry's fields that its field widths do not enforce already. -/
def Instr.fieldsOk : Instr → Bool
  | .ssetp _ _ _ r => r.toNat ≤ 9
  | .srsys d n => sysOk n d
  | .swsys a n => (n == 0x016 || n == 0x018) && sysOk n a
  | .vpermb _ _ a _ => pairOk a
  | .vsetp _ _ _ _ r => r.toNat ≤ 9
  | .vfadd _ d a b w | .vfsub _ d a b w | .vfmul _ d a b w | .vfmin _ d a b w | .vfmax _ d a b w | .vfminn _ d a b w
  | .vfmaxn _ d a b w | .vfsgn _ d a b w | .vfma _ d a b w => w == 0 || (pairOk d && pairOk a && pairOk b)
  | .vfsetp _ _ a b w _ => w == 0 || (pairOk a && pairOk b)
  | .vfclass _ _ a t => t != 1 || pairOk a
  | .vcvt _ d a c => vcvtOk c d a
  | .vdot _ _ _ _ f => f.toNat ≤ 8
  | .vqnt _ _ a _ _ => pairOk a
  | .rngc _ d a _ _ => pairOk d && pairOk a
  | .vred _ d a o t _ | .vscan _ d a o t _ | .vscanx _ d a o t _ => redOk o t d a
  | .ld8u _ _ am a b _ | .ld8s _ _ am a b _ | .ld16u _ _ am a b _ | .ld16s _ _ am a b _ | .ld32 _ _ am a b _ =>
      baseOk am a b
  | .ld64 _ d am a b _ => pairOk d && baseOk am a b
  | .ld128 _ d am a b _ => quadOk d && baseOk am a b
  | .st8 _ _ am a b _ _ | .st16 _ _ am a b _ _ | .st32 _ _ am a b _ _ => baseOk am a b
  | .st64 _ d am a b _ _ => pairOk d && baseOk am a b
  | .st128 _ d am a b _ _ => quadOk d && baseOk am a b
  | .lds64 _ d _ _ _ | .sts64 _ d _ _ => pairOk d
  | .lds128 _ d _ _ _ | .sts128 _ d _ _ => quadOk d
  | .pld _ _ a _ _ _ => a.toNat ≤ 30
  | .pst _ _ a _ => a.toNat ≤ 30
  | .atom _ d a o t _ | .red _ d a o t => pairOk d && pairOk a && atomOk o t
  | .objcall _ d a _ _ | .objpost _ d a _ => pairOk d && pairOk a
  | .waitv _ d _ w r => r.toNat ≤ 9 && (w == 0 || d.toNat % 2 == 0)
  | .enq _ d _ => quadOk d
  | .mtr px _ _ b _ => b == 0 || (px.getD {}).bias
  | .mlbl _ d _ => d != 0
  | .trapinfo _ b => b.toNat ≤ 2
  | .rdver _ b => b.toNat ≤ 13
  | _ => true

/-- The prefix fields of the unit are ones its entry honours (03 R76, R78). -/
def Instr.prefixOk (i : Instr) : Bool :=
  (match i.modw with | none => true | some m => m.within i.honours) &&
  (match i.mxw with | none => true | some m => m.within i.mxwHonours)

/-- A well-formed instruction: every field and every prefix field is one its entry admits. -/
def Instr.wellFormed (i : Instr) : Bool := i.prefixOk && i.fieldsOk

end Sys2Proof
end

