-- ==== Sys2Proof/Machine/Narrow.lean ====
section
/-!
DEFINITION. Format slots, and the narrow-format instructions: VCVT, VUNPK, VPACK, VDOT, VQNT and RNGC (09 R234 to R248).
-/

namespace Sys2Proof.Machine

/-! ### Format slots (09 R234 to R236) -/

/-- The descriptor of a format slot of the group's grid; a service group's slots read as empty (03 R66, 11 R294). -/
def slotWord (s : State) (g : Group) (n : Nat) : Word := match s.gridOf g with | none => 0 | some d => d.record.fmt.getD n 0

/-- The element format of a descriptor. -/
def slotElem (w : Word) : Option Elem := elemOf (w.extractLsb' 0 6)

/-- The scale form of a descriptor: 0 none, 1 e8, 2 bf16g, 3 f32row (04 R106). -/
def slotScale (w : Word) : Nat := (w.extractLsb' 6 2).toNat

/-- The flush rule of a descriptor. -/
def slotFtz (w : Word) : Bool := w.getLsbD 9

/-- Whether a scale form accepts an element format (04 R106): 0 none, 1 e8, 2 bf16g, 3 f32row. -/
def scaleAccepts (form : Nat) (f : Elem) : Bool :=
  match form, f with
  | 0, .plane _ => false
  | 0, _ => true
  | 1, .float g => g.bits ≤ 8
  | 1, .int _ w => w ≤ 8
  | 1, .plane _ => true
  | 2, .int _ w => w ≤ 8
  | 3, .float g => g.bits == 8
  | 3, .int _ w => w ≤ 8
  | _, _ => false

/-- A code written through a slot, flushed where the slot says so (04 R97). -/
def slotFlush (w : Word) (f : Elem) (code : Nat) : Nat := if slotFtz w then f.flush code else code

/-- Formats that VUNPK and VPACK accept (09 R236). -/
def packs (f : Elem) : Bool :=
  match f with
  | .float g => g.bits ≤ 16
  | .int _ w => w ≤ 16
  | .p6 => true
  | .plane _ => false

/-- Formats that the element form of VQNT accepts (09 R236). -/
def quantises (f : Elem) : Bool :=
  match f with
  | .float g => g.bits ≤ 16
  | .int _ w => w ≤ 8
  | .p6 => false
  | .plane _ => true

/-- Formats that the scale form of VQNT accepts (09 R236). -/
def scaleQuantises (f : Elem) : Bool :=
  match f with
  | .float g => g.bits ≤ 8
  | .int _ w => w ≤ 8
  | .p6 => false
  | .plane _ => true

/-- FMTSLOT when a slot is empty or does not pass a test of its format and scale form (09 R236). -/
def slotCheck (w : Word) (ok : Elem → Nat → Bool) : Option (Byte × Dword) :=
  match slotElem w with
  | none => some (causeFmtslot, 0)
  | some f => if ok f (slotScale w) then none else some (causeFmtslot, 0)

/-- Elements of a lane word in a slot's format (09 R236).  Where the slot is empty or names no packed format the rule gives no number, and the
checks that come before that of the slot take 1 register, and none of v[b] for an empty slot (DESIGN CHOICE, notes/assumptions/105.md). -/
def packCount (w : Word) : Nat :=
  match slotElem w with | none => 1 | some f => if packs f then 32 / f.bits else 1

/-- A value with its scale operand (04 R103, R107). -/
def scaledBy (form : Nat) (scale : Word) (x : Num) : Num :=
  match form with
  | 1 => if scale.toNat % 256 = 255 then .nan else x.scale ((scale.toNat % 256 : Nat) - 127)
  | 2 => Num.mul x (fmtBf16.decode scale.toNat)
  | 3 => Num.mul x (fmtF32.decode scale.toNat)
  | _ => x

/-! ### VCVT (09 R238, R239) -/

/-- The floating-point or p6 source of a VCVT code, as a number. -/
def cvtSource (code : Nat) (x : Nat) : Num :=
  match code with
  | 0x01 | 0x14 | 0x15 | 0x18 => fmtF64.decode x
  | 0x02 => fmtF16.decode x
  | 0x03 => fmtBf16.decode x
  | 0x04 => fmtF8e4.decode x
  | 0x05 => fmtF8e5.decode x
  | 0x06 => fmtF4.decode x
  | 0x07 => p6Value x
  | 0x12 | 0x19 | 0x1A | 0x1B | 0x1C | 0x1D | 0x1E => Num.ofInt (toSigned 32 (x % pow2 32))
  | 0x13 | 0x1F => Num.ofInt ((x % pow2 32 : Nat) : Int)
  | 0x16 => Num.ofInt (toSigned 64 (x % pow2 64))
  | 0x17 => Num.ofInt ((x % pow2 64 : Nat) : Int)
  | _ => fmtF32.decode x

/-- The destination of a VCVT code. -/
def cvtDest (code : Nat) : Elem :=
  match code with
  | 0x00 | 0x16 | 0x17 | 0x19 => .float fmtF64
  | 0x08 => .float fmtF16
  | 0x09 => .float fmtBf16
  | 0x0A => .float fmtF8e4
  | 0x0B => .float fmtF8e5
  | 0x0C => .float fmtF4
  | 0x0D => .p6
  | 0x10 | 0x18 => .int true 32
  | 0x11 => .int false 32
  | 0x14 | 0x1E => .int true 64
  | 0x15 | 0x1F => .int false 64
  | 0x1A => .int true 8
  | 0x1B => .int false 8
  | 0x1C => .int true 16
  | 0x1D => .int false 16
  | _ => .float fmtF32

/-- A signed 8- or 16-bit result extended to the register (09 R238). -/
def cvtExtend (f : Elem) (x : Nat) : Nat :=
  match f with
  | .int true w => if w < 32 then wrapNat 32 (toSigned w x) else x
  | _ => x

/-- The result of a VCVT code on a source element: scaled, rounded once; an integer from an integer wraps unless sat is set. -/
def cvt (code : Nat) (m : Modw) (x : Nat) : Nat :=
  let f := cvtDest code
  let y := (cvtSource code x).scale m.psc.toInt
  match f with
  | .int s w =>
    if 0x1A ≤ code then
      let t := (y.toInt m.rnd).getD 0
      cvtExtend f (wrapNat w (if m.sat then saturate s w t else t))
    else wrapNat w (numToIntSat s w m.rnd y)
  | g => g.encode m.rnd m.sat y

/-- Registers of the destination and source of a VCVT code: 2 for a pair. -/
def cvtWide (code : BitVec 7) : Nat × Nat := (vcvtShape code).getD (1, 1)

/-- VCVT (R238). -/
def execVcvt (px : Option Modw) (d a k : BitVec 7) (s : State) : Host.Outcome State Fault Refusal :=
  let (nd, na) := cvtWide k
  let wd : BitVec 1 := if nd = 2 then 1 else 0
  let wa : BitVec 1 := if na = 2 then 1 else 0
  runUnit s (fun c => { words := unitWords px, vs := elemRegs c wd d ++ elemRegs c wa a }) fun c =>
    doneG c (putElems c.g wd (vr c d) (activeLanes c px) fun i => cvt k.toNat (mw px) (elemAt c wa a i))

/-! ### VUNPK and VPACK (09 R240 to R242) -/

/-- Element k of a packed word. -/
def packedElem (f : Elem) (w : Word) (k : Nat) : Nat := (w.toNat >>> (f.bits * k)) % pow2 f.bits

/-- One element of VUNPK as f32. -/
def unpackOne (sw : Word) (m : Modw) (f : Elem) (scale : Word) (code : Nat) : Word :=
  BitVec.ofNat 32 (fmtF32.encode m.rnd m.sat (scaledBy (slotScale sw) scale (f.value (slotFlush sw f code))))

/-- What VUNPK and VPACK touch: `wide` the P registers, `one` the packed word, and the scale operand when there is one. -/
def packSpec (px : Option Modw) (wide one b : BitVec 7) (s : BitVec 3) (ok : Elem → Nat → Bool) (c : Ctx) : UnitSpec :=
  let w := slotWord c.s c.g s.toNat
  { words := unitWords px, vs := vrs c wide (packCount w) ++ [vr c one] ++ (if slotScale w = 0 then [] else [vr c b]),
    slot := slotCheck w ok }

/-- VUNPK (R241). -/
def execVunpk (px : Option Modw) (d a b : BitVec 7) (n : BitVec 3) (s : State) : Host.Outcome State Fault Refusal :=
  runUnit s (packSpec px d a b n fun f _ => packs f) fun c =>
    let w := slotWord c.s c.g n.toNat
    match slotElem w with
    | none => .done c.s
    | some f =>
      let ls := activeLanes c px
      doneG c ((List.range (packCount w)).foldl (fun g k =>
        g.setLanes (vr c d + k) ls fun i => unpackOne w (mw px) f (vget c b i) (packedElem f (vget c a i) k)) c.g)

/-- One element of VPACK. -/
def packOne (sw : Word) (m : Modw) (f : Elem) (scale : Word) (x : Word) : Nat :=
  let v := fmtF32.decode x.toNat
  if slotScale sw = 1 then
    let e := scale.toNat % 256
    if e = 255 then 0
    else
      let y := v.scale (127 - (e : Nat))
      slotFlush sw f (if y.isFinite then f.encodeSat m.rnd y else f.encode m.rnd m.sat y)
  else slotFlush sw f (f.encode m.rnd m.sat v)

/-- VPACK (R242). -/
def execVpack (px : Option Modw) (d a b : BitVec 7) (n : BitVec 3) (s : State) : Host.Outcome State Fault Refusal :=
  runUnit s (packSpec px a d b n fun f sc => packs f && decide (sc ≤ 1)) fun c =>
    let w := slotWord c.s c.g n.toNat
    match slotElem w with
    | none => .done c.s
    | some f =>
      doneG c (c.g.setLanes (vr c d) (activeLanes c px) fun i =>
        BitVec.ofNat 32 ((List.range (packCount w)).foldl (fun acc k =>
          acc + packOne w (mw px) f (vget c b i) (c.g.getV (vr c a + k) i) * pow2 (f.bits * k)) 0))

/-! ### VDOT (09 R243, R244) -/

/-- The element formats of the forms of VDOT. -/
def dotFormats (f : Nat) : Elem × Elem :=
  match f with
  | 0 => (.int true 8, .int true 8)
  | 1 => (.int false 8, .int true 8)
  | 2 => (.int true 4, .int true 4)
  | 3 => (.int false 4, .int true 4)
  | 4 => (.float fmtF16, .float fmtF16)
  | 5 => (.float fmtBf16, .float fmtBf16)
  | 6 => (.float fmtF8e4, .float fmtF8e4)
  | 7 => (.float fmtF8e5, .float fmtF8e5)
  | _ => (.float fmtF4, .float fmtF4)

/-- An exact sum of numbers: an exact zero is -0 only when every one is -0 (09 R244, 04 R115). -/
def exactSum : List Num → Num
  | [] => Num.zero false
  | x :: xs => xs.foldl (Num.add false) x

/-- The products of the packed elements of two words. -/
def dotProducts (f : Nat) (x y : Word) : List Num :=
  let (a, b) := dotFormats f
  (List.range (32 / a.bits)).map fun k => Num.mul (a.value (packedElem a x k)) (b.value (packedElem b y k))

/-- The result of VDOT in a lane. -/
def dotLane (f : Nat) (m : Modw) (x y z : Word) : Word :=
  let s := exactSum (dotProducts f x y)
  if f < 4 then
    let t := (s.toInt 0).getD 0 + z.toInt
    BitVec.ofNat 32 (wrapNat 32 (if m.sat then saturate true 32 t else t))
  else BitVec.ofNat 32 (tailFloat fmtF32 m (Num.add (m.rnd == 2) (if m.nega then s.neg else s) (numOfF32 z)))

/-- VDOT (R244). -/
def execVdot (px : Option Modw) (d a b : BitVec 7) (f : BitVec 4) (s : State) : Host.Outcome State Fault Refusal :=
  vectorOp (unitWords px) px (fun c => vr c d) (fun c => [vr c a, vr c b]) []
    (fun c i => dotLane f.toNat (mw px) (vget c a i) (vget c b i) (vget c d i)) s

/-! ### VQNT and RNGC (09 R245 to R248) -/

/-- The element form of VQNT in a lane: the value, its scale operand and its random bits.  Under an e8 scale, which every plane format has, a finite
overflow becomes the largest finite value of its sign (04 R109; 09 R246; DEDUCED for the plane formats, notes/assumptions/107.md). -/
def quantOne (sw : Word) (sat : Bool) (f : Elem) (x scale v : Word) : Word :=
  let e8 := slotScale sw == 1
  let e := scale.toNat % 256
  let y := if e8 then (numOfF32 x).scale (127 - (e : Nat)) else numOfF32 x
  if e8 && e == 255 then 0
  else match f with
    | .plane n =>
      let t := stochInt true (4 * n) v (y.scale (4 * (n : Nat) - 1))
      BitVec.ofNat 32 (wrapNat 32 ((if y.isFinite then largest true (4 * n) t else t) * (pow2 (32 - 4 * n) : Nat)))
    | .float g => BitVec.ofNat 32 (slotFlush sw f (g.stoch (sat || (e8 && y.isFinite)) v y))
    | .int s w =>
      let t := stochInt s w v y
      BitVec.ofNat 32 (wrapNat w (if e8 && y.isFinite then largest s w t else t))
    | .p6 => BitVec.ofNat 32 (p6Stoch v y)

/-- VQNT, element form (R246). -/
def execVqnt (px : Option Modw) (d a b : BitVec 7) (n : BitVec 3) (s : State) : Host.Outcome State Fault Refusal :=
  runUnit s (fun c =>
    let w := slotWord c.s c.g n.toNat
    { words := unitWords px, vs := [vr c d, vr c b] ++ vrs c a (if slotScale w = 1 then 2 else 1),
      slot := slotCheck w fun f sc => quantises f && decide (sc ≤ 1) }) fun c =>
    let w := slotWord c.s c.g n.toNat
    match slotElem w with
    | none => .done c.s
    | some f =>
      doneG c (c.g.setLanes (vr c d) (activeLanes c px) fun i =>
        quantOne w (mw px).sat f (vget c a i) (c.g.getV (vr c a + 1) i) (vget c b i))

/-- The e8 code that a slot's format takes for the magnitude of an f32 word (09 R247, 04 R109, R110). -/
def scaleOf (f : Elem) (x : Word) : Word := BitVec.ofNat 32 (scaleCode f (numOfF32 x))

/-- VQNT, scale form (R247). -/
def execVqntScale (px : Option Modw) (d a : BitVec 7) (n : BitVec 3) (s : State) : Host.Outcome State Fault Refusal :=
  runUnit s (fun c =>
    { words := unitWords px, vs := [vr c d, vr c a],
      slot := slotCheck (slotWord c.s c.g n.toNat) fun f sc => scaleQuantises f && decide (sc = 1) }) fun c =>
    match slotElem (slotWord c.s c.g n.toNat) with
    | none => .done c.s
    | some f => doneG c (c.g.setLanes (vr c d) (activeLanes c px) fun i => scaleOf f (vget c a i))

/-- RNGC (R248): long-latency; the seed is read at issue. -/
def execRngc (px : Option Modw) (d a : BitVec 7) (b : BitVec 5) (l : BitVec 4) (s : State) : Host.Outcome State Fault Refusal :=
  runUnit s (fun c => { words := unitWords px, vs := vrs c d 2 ++ vrs c a 2, ss := pairRegs b }) fun c =>
    computeOut c px l (vr c d) true fun i =>
      (rng c.g.rngkey (c.g.getS (pairOf b)) (c.g.getS (pairOf b + 1)) (vget c a i) (c.g.getV (vr c a + 1) i)).toNat

end Sys2Proof.Machine
end

