-- ==== Sys2Proof/Machine/Launch.lean ====
section
/-!
DEFINITION. Launch records and their checks, completion words, LAUNCH, LAUNCHI, CWAIT and GANGSET, and the work queue instructions
ENQ, DEQ and DEQT (05 R124 to R144, R458; 17 R407).
-/

namespace Sys2Proof.Machine

/-! ### The launch record (05 R124 to R126) -/

/-- The fields of a launch record of 256 bytes (05 R124). -/
def parseRecord (bs : List Byte) : LaunchRecord :=
  let n := fieldOf bs
  { version := BitVec.ofNat 16 (n 0 2), kind := BitVec.ofNat 8 (n 2 1), priority := BitVec.ofNat 8 (n 3 1),
    depth := BitVec.ofNat 8 (n 4 1), gangPref := BitVec.ofNat 8 (n 5 1), gangFall := BitVec.ofNat 8 (n 6 1),
    groups := BitVec.ofNat 8 (n 7 1), teams := BitVec.ofNat 32 (n 8 4), pool := BitVec.ofNat 32 (n 0xC 4),
    entry := BitVec.ofNat 64 (n 0x10 8), methods := BitVec.ofNat 64 (n 0x18 8), vector := BitVec.ofNat 64 (n 0x20 8),
    arg := BitVec.ofNat 64 (n 0x28 8), countAddr := BitVec.ofNat 64 (n 0x30 8), complete := BitVec.ofNat 64 (n 0x38 8),
    vDemand := BitVec.ofNat 16 (n 0x40 2), cDemand := BitVec.ofNat 8 (n 0x42 1), tDemand := BitVec.ofNat 8 (n 0x43 1),
    evict := BitVec.ofNat 32 (n 0x44 4), quantum := BitVec.ofNat 32 (n 0x48 4),
    fmt := (List.range 8).map fun i => BitVec.ofNat 32 (n (0x50 + 4 * i) 4) }

/-- A queue fence (05 R124). -/
def LaunchRecord.isFence (r : LaunchRecord) : Bool := r.kind.extractLsb' 0 2 == 1

/-- The indirect, Ephemeris and system bits of the kind (05 R124). -/
def LaunchRecord.indirect (r : LaunchRecord) : Bool := r.kind.getLsbD 2
def LaunchRecord.ephemeris (r : LaunchRecord) : Bool := r.kind.getLsbD 3
def LaunchRecord.system (r : LaunchRecord) : Bool := r.kind.getLsbD 4

/-- The pool word with the default for 0 (05 R124). -/
def LaunchRecord.poolWord (r : LaunchRecord) : Word := if r.pool = 0 then 0x00102010#32 else r.pool

/-- Pool shares in units of 256 KiB (05 R124, 01 R12). -/
def poolRf (w : Word) : Nat := (w.extractLsb' 0 6).toNat
def poolSp (w : Word) : Nat := (w.extractLsb' 8 6).toNat
def poolAcc (w : Word) : Nat := (w.extractLsb' 16 6).toNat

/-- Granules of one group, and its accumulator tiles rounded up to four (03 R62, R65). -/
def LaunchRecord.granules (r : LaunchRecord) : Nat := (r.vDemand.toNat + 7) / 8
def LaunchRecord.accTiles (r : LaunchRecord) : Nat := 4 * ((r.cDemand.toNat + 3) / 4)

/-- Granules that a core's register file share holds, and tiles that its accumulator share holds (01 R14). -/
def poolGranules (w : Word) : Nat := 256 * poolRf w
def poolTiles (w : Word) : Nat := 64 * poolAcc w

/-- Teams of a record that an empty core holds: granules, tiles, and 1,024 group slots (05 R133). -/
def coreHolds (r : LaunchRecord) : Nat :=
  let g := r.groups.toNat
  let byGran := poolGranules r.poolWord / max 1 (g * r.granules)
  let bySlot := 1024 / max 1 g
  if r.accTiles = 0 then min byGran bySlot else min (min byGran bySlot) (poolTiles r.poolWord / max 1 (g * r.accTiles))

/-- Teams that a core takes with the relaunch reserve of the same grid kept: one, or one fewer than it holds (05 R149). -/
def coreTakes (r : LaunchRecord) : Nat := if coreHolds r = 0 then 0 else max 1 (coreHolds r - 1)

/-- Teams that an empty cluster takes: those of its four cores, or, in gang sets, whole sets of gang pref teams and then of gang fall teams,
none across clusters (05 R134). -/
def clusterTakes (r : LaunchRecord) : Nat :=
  let n := 4 * coreTakes r
  let g := r.gangPref.toNat
  let f := r.gangFall.toNat
  if g = 0 then n else g * (n / g) + f * (n % g / f)

/-- The phase width N of an Ephemeris record of T teams in a partition (17 R400). -/
def phaseWidth (p : Part) (r : LaunchRecord) (teams : Nat) : Nat := min teams (p.clusters.length * clusterTakes r)

/-- A legal format slot descriptor (09 R235, 04 R106). -/
def slotLegal (w : Word) : Bool :=
  w == 0 ||
  (w.extractLsb' 10 22 == 0 &&
   match slotElem w with
   | none => false
   | some f =>
     let code := (w.extractLsb' 0 6).toNat
     scaleAccepts (slotScale w) f &&
     (f.isPlane || !(w.getLsbD 8)) && (decide (code ≤ 7) || !(slotFtz w)))

/-- Whether a range of bytes is all zero. -/
def allZero (bs : List Byte) (from_ n : Nat) : Bool := ((bs.drop from_).take n).all fun b => b == 0

/-- The check of a record's bytes (05 R126): `entitled` for a launcher whose system bit counts (05 R130).  A fence with any other bit of the
kind set is refused with 0x02 (DESIGN CHOICE, notes/assumptions/83.md). -/
def checkRecord (p : Part) (entitled : Bool) (bs : List Byte) : Byte :=
  let r := parseRecord bs
  if r.version ≠ 1 then 0x01
  else if r.isFence then
    if r.kind ≠ 1 ∨ !(allZero bs 3 0x35) ∨ !(allZero bs 0x40 0xC0) then 0x02
    else if r.complete.toNat % 8 ≠ 0 then 0x0A else 0
  else if r.kind.extractLsb' 5 3 ≠ 0 ∨ r.kind.extractLsb' 0 2 ≠ 0 ∨ r.priority.extractLsb' 2 6 ≠ 0 ∨ r.pool &&& 0xFFC0C0C0#32 ≠ 0 ∨
      !(allZero bs 0x4C 4) ∨ !(allZero bs 0x70 144) then 0x02
  else
    let w := r.poolWord
    let g := r.groups.toNat
    if poolRf w = 0 ∨ 32 < poolRf w ∨ poolSp w = 0 ∨ 48 < poolSp w ∨ 32 < poolAcc w ∨ 64 < poolRf w + poolSp w + poolAcc w then 0x03
    else if 10 < r.depth.toNat ∨ g = 0 ∨ 32 < g ∨ 6 < r.gangPref.toNat ∨ r.gangPref = 1 ∨
        (if r.gangPref = 0 then r.gangFall ≠ 0 else r.gangFall.toNat < 2 ∨ r.gangPref.toNat < r.gangFall.toNat) ∨
        r.vDemand = 0 ∨ 1024 < r.vDemand.toNat ∨ 128 < r.cDemand.toNat ∨ 16 < r.tDemand.toNat then 0x04
    else if poolGranules w < g * r.granules ∨ poolTiles w < g * r.accTiles ∨ (r.ephemeris = true ∧ phaseWidth p r 1 = 0) then 0x05
    else if r.fmt.any (fun x => !(slotLegal x)) = true then 0x06
    else if (r.priority = 0 ∧ r.system = false) ∨ (r.system = true ∧ (entitled = false ∨ r.priority ≠ 0)) then 0x07
    else if (if r.ephemeris then r.quantum.toNat < 256 ∨ 65536 < r.quantum.toNat else r.quantum ≠ 0) then 0x08
    else if r.entry.toNat % 4 ≠ 0 ∨ r.vector.toNat % 4 ≠ 0 ∨ r.complete.toNat % 8 ≠ 0 ∨
        (r.indirect = true ∧ r.countAddr.toNat % 4 ≠ 0) then 0x0A
    else 0

/-! ### Completion words (05 R128, R458) -/

/-- The requester word of a completion word: kind 2 for a command of a copy queue, 4 for a grid of a launch queue (05 R458). -/
def wordRequester (s : State) (part : Nat) (b : Word) : Word :=
  if b.getLsbD 8 then requester 2 (copyEngine s part (b.toNat % 256)) else requester 4 (b.toNat % 256)

/-- Writes a completion word, with the rights of its launcher (05 R458): a page that is not present makes it wait; a failure leaves it
unwritten and is logged as kind 0x09 with words A and B.  That of a copy command of a running phase is one of the writes of its team, which
do not leave tier 0 (17 R401, R407, R409). -/
def completionWord (s : State) (part : Nat) (addr value : Dword) (r : Rights) (a b : Word) (ph : Option (Nat × Nat × Nat) := none) : State :=
  if addr = 0 ∨ addr.toNat % 8 ≠ 0 then s
  else match translate s r none .store addr 0 with
    | .access => errLog s part 0x09 causeAccess addr 0 0 a b
    | .absent k =>
      let wait := fun (s : State) (seqs : List Word) => s.modPart part fun p =>
        { p with words := p.words ++ [{ addr := addr, value := value, rights := r, a := a, b := b, pause := { open_ := seqs, failed := none }, phase := ph }] }
      match faultRecord s part k 0x05 (wordRequester s part b) addr with
      | some (n, s1) => wait s1 [n]
      | none => wait s []
    | .loc l t leaf =>
      if ph.isSome ∧ t ≠ 0 then errLog s part 0x09 causeAccess addr 0 0 a b
      else if broken s part l then errLog s part 0x09 causeMemerr addr 0 0 a b
      else if refusedRemote l then errLog s part 0x09 causeAccess addr 0 0 a b
      else
        let s1 := useLeaves s part [.loc l t leaf] true
        match ph with
        | none => writeLoc s1 l (bytesOfNat 8 value.toNat)
        | some (team, q, gid) => writePhase s1 team q gid l (bytesOfNat 8 value.toNat)

/-- The value of a grid's completion word: grid number and status (05 R128). -/
def gridWord (number : Word) (status : Byte) : Dword := BitVec.ofNat 64 (number.toNat + status.toNat * pow2 32)

/-! ### Appending a record (05 R127, R131, R140, R446) -/

/-- Grid numbers that are in use in a partition: queued and not retired, those of saved contexts among them. -/
def gridNumbers (s : State) (p : Part) : List Word :=
  (p.launch.flatMap fun q => q.items.map QueuedRecord.number) ++
  ((s.allGrids.filter fun d => d.part == p.id && !d.retired).map Grid.number)

/-- The first number from `n` on that is not in use (05 R127). -/
def freeNumber : Nat → List Word → Word → Word
  | 0, _, n => n
  | fuel + 1, used, n => if n = 0 ∨ used.contains n = true then freeNumber fuel used (nextNumber n) else n

/-- Writes the bytes of a queued record into its slot of the ring (05 R131). -/
def writeSlot (s : State) (q : LaunchQueue) (r : QueuedRecord) : State :=
  writeLoc s (.mem (q.base.toNat + 256 * (r.slot % pow2 q.k))) r.bytes

/-- Submits a record to a launch queue: its check, its place at the tail and its grid number; a rejected record's completion word is
written (05 R126 to R128, R131).  A slot that an Ephemeris launch reserves is written at the phase's commit (17 R407).  The answer is the
status and the number. -/
def submitRecord (s : State) (part q : Nat) (bs : List Byte) (l : Launcher) (entitled reserved : Bool) : Byte × Word × State :=
  match s.part? part with
  | none => (0x09, 0, s)
  | some p =>
    let w := p.launch.getD q {}
    let r := parseRecord bs
    let st := checkRecord p entitled bs
    let full := w.k < 2 ∨ pow2 w.k ≤ w.items.length
    let status : Byte := if st = 0 ∧ full then 0x09 else st
    if status = 0 then
      let used := gridNumbers s p
      let n := freeNumber (used.length + 2) used p.nextGrid
      let item : QueuedRecord := { record := r, number := n, launcher := l, reserved := reserved, ended := false, slot := w.tail, bytes := bs }
      let s1 := if reserved then s else writeSlot s w item
      (0, n, s1.modPart part fun p => { p with
        nextGrid := nextNumber n
        launch := p.launch.mapIdx fun i x =>
          if i = q then { x with items := x.items ++ [if reserved then item else { item with bytes := [] }], tail := x.tail + 1 } else x })
    else
      (status, 0, completionWord s part r.complete (gridWord 0 status) { part := part, sys := l.sys } 0 (BitVec.ofNat 32 q))

/-! ### LAUNCH and LAUNCHI (05 R140) -/

/-- A record's bytes with the depth of a child and, for LAUNCHI, the indirect bit (05 R136, R140).  A fence keeps its depth field 0, which its
check asks for (DESIGN CHOICE, notes/assumptions/83.md). -/
def childBytes (bs : List Byte) (depth : Nat) (indirect : Bool) : List Byte :=
  bs.mapIdx fun i b =>
    if i = 4 ∧ (parseRecord bs).isFence = false then BitVec.ofNat 8 (depth + 1)
    else if i = 2 ∧ indirect = true then b ||| 4 else b

/-- A team that has launched a grid: the grid's number, which one that has retired may have had before (05 R127), is that of one that has not
retired (05 R141). -/
def Team.launch (t : Team) (n : Word) : Team := { t with launched := t.launched ++ [n], retired := t.retired.filter fun x => x != n }

/-- LAUNCH and LAUNCHI (05 R140); in Ephemeris mode the slot is reserved at once (17 R407). -/
def launchBody (indirect : Bool) (d a : BitVec 5) (b : BitVec 6) (c : Ctx) : UnitRes :=
  let addr := c.g.getPair (pairOf a)
  let q := (c.g.getS b.toNat).toNat
  match c.s.gridOf c.g with
  | none => .trap causeIllegal c.f.mask 0
  | some grid =>
    if c.g.num ≠ 0 then .trap causeIllegal c.f.mask 0
    else if 10 ≤ grid.record.depth.toNat then .trap causeNest c.f.mask 0
    else if 16 ≤ q then .trap causeQueue c.f.mask 0
    else match readRecord c addr 256 64 with
      | .error r => r
      | .ok (s, bs) =>
        let rec_ := childBytes bs grid.record.depth.toNat indirect
        let sys := c.s.isSysGroup c.g
        let r := submitRecord s c.g.part q rec_ { team := some c.g.team, sys := sys } sys (c.s.ephGrid c.g).isSome
        let s1 := if r.1 = 0 then r.2.2.modTeam c.g.team fun t => t.launch r.2.1 else r.2.2
        .done (s1.modGroup c.g.id fun g => (g.setS (pairOf d) r.2.1).setS (pairOf d + 1) (r.1.setWidth 32))

/-- What LAUNCH touches; it traps ILLEGAL in a method and in a handler (05 R140). -/
def launchSpec (px : Option Modw) (d a : BitVec 5) (b : BitVec 6) (_ : Ctx) : UnitSpec :=
  { words := unitWords px, ss := pairRegs d ++ pairRegs a ++ [b.toNat], noMethod := true, noHandler := true, region := true,
    rel := streamMask px }

/-- LAUNCH (R140). -/
def execLaunch (px : Option Modw) (d a : BitVec 5) (b : BitVec 6) (s : State) : Host.Outcome State Fault Refusal :=
  runUnit s (launchSpec px d a b) (launchBody false d a b)

/-- LAUNCHI (R140). -/
def execLaunchi (px : Option Modw) (d a : BitVec 5) (b : BitVec 6) (s : State) : Host.Outcome State Fault Refusal :=
  runUnit s (launchSpec px d a b) (launchBody true d a b)

/-! ### CWAIT (05 R141) -/

/-- CWAIT (05 R141): in Ephemeris mode, a wait on a grid that the phase launched traps EPHVIOL (17 R407). -/
def cwaitBody (a : BitVec 6) (c : Ctx) : UnitRes :=
  let n := c.g.getS a.toNat
  match c.s.team? c.g.team with
  | none => .done c.s
  | some t =>
    let ns := if n = 0 then t.launched else [n]
    if n ≠ 0 ∧ t.launched.contains n = false then .trap causeQueue c.f.mask 0
    else if (c.s.ephGrid c.g).isSome ∧ ns ≠ [] then .trap causeEphviol c.f.mask 0
    else
      let left := unretired t ns
      if left = [] then .done c.s else doneG c (c.g.modFrag c.f.id fun f => { f with wait := some (.grids left) })

/-- CWAIT (R141). -/
def execCwait (px : Option Modw) (a : BitVec 6) (s : State) : Host.Outcome State Fault Refusal :=
  runUnit s (fun _ => { words := unitWords px, ss := [a.toNat], noMethod := true, noHandler := true, path := true, quantum := true })
    (cwaitBody a)

/-! ### Work queues (05 R137, R142, R143) -/

/-- The queue number in s[a] when it names a queue that is set up. -/
def queueAt (c : Ctx) (a : BitVec 6) : Option Nat :=
  let n := (c.g.getS a.toNat).toNat
  if n < 64 ∧ (workQ? c.s c.g.part n).isSome then some n else none

/-- DEQ (R142): an item, or the fragment parks until it can take one; its region ends when it takes an item (06 R167). -/
def execDeq (px : Option Modw) (d : BitVec 4) (a : BitVec 6) (l : BitVec 4) (s : State) : Host.Outcome State Fault Refusal :=
  runUnit s (fun _ => { words := unitWords px, ss := a.toNat :: quadRegs d, noMethod := true, noHandler := true, path := true,
                        region := true, quantum := true }) fun c =>
    match queueAt c a with
    | none => .trap causeQueue c.f.mask 0
    | some q =>
      let (id, s1) := c.s.fresh
      .done (emit s1 c.g.id (.deq q c.f.id (16 * id + l.toNat) (quadOf d)))

/-- DEQT (R142): an item, or none; p[f] tells which. -/
def execDeqt (px : Option Modw) (d : BitVec 4) (a : BitVec 6) (p : BitVec 4) (s : State) : Host.Outcome State Fault Refusal :=
  runUnit s (fun _ => { words := unitWords px, ss := a.toNat :: quadRegs d, noMethod := true, region := true, quantum := true }) fun c =>
    match queueAt c a with
    | none => .trap causeQueue c.f.mask 0
    | some q => .done (emit c.s c.g.id (.deqt q c.f.id (quadOf d) p))

/-- The items that a group's held ENQs put into a queue (17 R404). -/
def heldItems (g : Group) (q : Nat) : Nat :=
  let held := match g.logical with | none => [] | some l => l.held
  (held.map fun e => match e with | .enq n items => if n = q then items.length else 0 | _ => 0).sum

/-- ENQ (R143): one item for each active lane, or none at all when the queue has no room for them.  In Ephemeris mode the room is judged in
logical order, with the items that the group holds for the queue (17 R406).  With no active lane its registers are judged all the same (03 R62, R85;
DESIGN CHOICE, notes/assumptions/106.md). -/
def execEnq (px : Option Modw) (d : BitVec 7) (a : BitVec 6) (s : State) : Host.Outcome State Fault Refusal :=
  runUnit s (fun c => { words := unitWords px, vs := vrs c d 4, ss := [a.toNat], noMethod := true, region := true,
                        rel := streamMask px }) fun c =>
    let ls := activeLanes c px
    if ls = [] then .done c.s
    else match queueAt c a with
      | none => .trap causeQueue c.f.mask 0
      | some q =>
        let w := (workQ? c.s c.g.part q).getD {}
        if logicalTurn c.s c.g = false then .wait
        else if pow2 w.k < w.items.length + heldItems c.g q + ls.length then .trap causeQueue (maskOf ls) 0
        else .done (emit c.s c.g.id (.enq q (ls.map fun i => (List.range 4).map fun k => c.g.getV (vr c d + k) i)))

/-! ### GANGSET (05 R135, R144) -/

/-- Member k of a gang register: team rank and group number. -/
def gangMember (x : Dword) (k : Nat) : Nat × Nat :=
  ((x.extractLsb' (8 + 8 * k + 5) 3).toNat, (x.extractLsb' (8 + 8 * k) 5).toNat)

/-- The members of a gang register (05 R135). -/
def gangMembers (x : Dword) : List (Nat × Nat) := (List.range (x.extractLsb' 0 3).toNat).map (gangMember x)

/-- A legal value for GANGSET (05 R144); a value without a gang is 0, and outside a gang set, in a grid without a gang, no other is legal
(05 R135). -/
def gangLegal (t : Team) (g : Group) (inSet : Bool) (perTeam : Nat) (x : Dword) : Bool :=
  let n := (x.extractLsb' 0 3).toNat
  let m := (x.extractLsb' 3 3).toNat
  let ms := gangMembers x
  if n = 0 then x == 0
  else inSet && 2 ≤ n && n ≤ 6 && m < n && ms.getD m (8, 0) == (t.rank, g.num) &&
    (ms.all fun y => decide (y.1 < t.setSize) && decide (y.2 < perTeam)) && ms.eraseDups.length == n &&
    (List.range (6 - n)).all (fun k => (x.extractLsb' (8 + 8 * (n + k)) 8).toNat == 0) &&
    x.extractLsb' 56 8 == 0 && x.extractLsb' 6 2 == 0

/-- Whether a held effect is a joint matrix command. -/
def Effect.isJoint (e : Effect) : Bool := match e with | .matrix _ c => c.joint.isSome | _ => false

/-- GANGSET (R144): it waits until every joint command of the group has passed its latch; the gang register takes the value, and the
count of joint commands begins again (14 R352); or GANG.  In Ephemeris mode a joint command that is held to the end of its quantum could not pass
its latch while GANGSET waits: the quantum ends before the GANGSET, a point that the list of 17 R403 does not have (DESIGN CHOICE,
notes/assumptions/104.md). -/
def execGangset (a : BitVec 5) (s : State) : Host.Outcome State Fault Refusal :=
  runUnit s (fun _ => { ss := pairRegs a }) fun c =>
    let x := c.g.getPair (pairOf a)
    let held := match c.g.logical with | none => false | some l => l.held.any Effect.isJoint
    if held then .cut
    else if c.s.mats.any fun q => q.cmds.any fun m => m.group == c.g.id && m.latched then .wait
    else match c.s.team? c.g.team with
      | none => .trap causeGang c.f.mask 0
      | some t =>
        let inSet := (c.s.gridOf c.g).any fun d => d.record.gangPref != 0
        if gangLegal t c.g inSet (c.s.groupsPerTeam c.g) x then
          let s1 := c.s.setGroup { c.g with gang := x, joints := 0 }
          .done { s1 with latches := s1.latches.filter fun l => !(l.failed && l.members.contains c.g.id) }
        else .trap causeGang c.f.mask 0

end Sys2Proof.Machine
end

