-- ==== Sys2Proof/Machine/Matrix.lean ====
section
/-!
DEFINITION. The issue of matrix commands, batches and MSTAT (14 R342 to R360, 15 R373, R375), and MLBL with the legality of a relation
word (15 R362 to R365, R371).  What the engine does with a command is in MatrixEngine.lean.
-/

namespace Sys2Proof.Machine

/-! ### What a command may name (14 R343 to R346, 04 R113) -/

/-- A command word that R343 admits; `stats` for the commands that take the statistics bit. -/
def cwLegal (w : Word) (stats : Bool) : Bool :=
  w.extractLsb' 23 9 == 0 && cwType w ≠ 3 && w.extractLsb' 10 2 ≠ 3 && w.extractLsb' 8 2 ≠ 3 && (stats || !(w.getLsbD 7)) &&
    !(cwType w == 1 && w.getLsbD 0)

/-- The chunk length and the accumulator element type of a slot's format and scale form (04 R113). -/
def chunkOf (f : Elem) (form : Nat) : Nat × Nat :=
  match f with
  | .float g => if g.bits = 64 then (8, 1) else if g.bits = 32 then (16, 0) else (32, 0)
  | .int _ w => if w ≤ 8 ∧ form = 0 then (32, 2) else (32, 0)
  | _ => (32, 0)

/-- The formats that MMA and MMAS accept in their slot (04 R113). -/
def mmaAccepts (f : Elem) : Bool :=
  match f with | .float _ => true | .int _ w => w ≤ 8 | .plane n => n ≤ 4 | .p6 => false

/-- The formats of V that MMAP accepts (15 R375). -/
def mmapAccepts (f : Elem) : Bool :=
  match f with | .float g => (g.bits == 16 || g.bits == 8) | _ => false

/-- The format code of an accumulator element type. -/
def accCode (type : Nat) : BitVec 6 := if type = 1 then 0x01 else if type = 2 then 0x14 else 0x02

/-- Accumulator tiles beyond the group's allocation (03 R65). -/
def accBeyond (g : Group) (base n : Nat) : Bool := decide (g.tiles < base + n)

/-- The fields of an MXW, or their defaults. -/
def xw (px : Option Mxw) : Mxw := px.getD {}

/-- The lanes of the fragment where the guard of a matrix command is true (03 R78). -/
def mxGuard (c : Ctx) (px : Option Mxw) : Word := c.f.mask &&& c.g.getP (xw px).guard.toNat

/-- The command pair of a matrix command. -/
def cmdWord (c : Ctx) (d : BitVec 5) : Word := c.g.getS (pairOf d)
def auxWord (c : Ctx) (d : BitVec 5) : Word := c.g.getS (pairOf d + 1)

/-- Step 6 of a matrix command: FMTSLOT for its slot, then RELWORD for a relation slot that nothing has loaded (03 R66, 14 R346). -/
def matSlot (c : Ctx) (px : Option Mxw) (slot : Option (BitVec 3)) (ok : Elem → Nat → Bool) : Option (Byte × Dword) :=
  let fmt := match slot with | none => none | some n => slotCheck (slotWord c.s c.g n.toNat) ok
  match fmt with
  | some x => some x
  | none =>
    let r := (xw px).rel.toNat
    let loaded := match c.s.team? c.g.team with | none => false | some t => (sfind t.rels r).isSome
    if r ≠ 0 ∧ loaded = false then some (causeRelword, 0) else none

/-- What the order of detection needs of a matrix command: `tiles` are the accumulator ranges it names, `handles` its tile handles. -/
def matSpec (px : Option Mxw) (d : BitVec 5) (stats : Bool) (tiles : Word → Word → List (Nat × Nat)) (handles : List (BitVec 4))
    (slot : Option (BitVec 3)) (ok : Elem → Nat → Bool) (c : Ctx) : UnitSpec :=
  let w := cmdWord c d
  { words := unitWords px, ss := pairRegs d
    regx := (cwLegal w stats && (tiles w (auxWord c d)).any fun x => accBeyond c.g x.1 x.2) ||
      handles.any fun h => decide (c.g.handleN ≤ h.toNat)
    slot := matSlot c px slot ok, unif := mxGuard c px != 0 && mxGuard c px != c.f.mask, noMethod := true, region := true }

/-- The relation word that a command captures at issue (15 R372). -/
def relOf (c : Ctx) (px : Option Mxw) : Option (BitVec 128) :=
  if (xw px).rel = 0 then none else (c.s.team? c.g.team).bind fun t => sfind t.rels (xw px).rel.toNat

/-- The core a group's commands go to. -/
def coreNo (c : Ctx) : Nat := (c.s.coreOf c.g).getD 0

/-- Whether the matrix queue of the core is full: 64 commands, the places of MSTATs not among them (DEDUCED, notes/assumptions/66.md); in Ephemeris mode this is judged at the release (14 R342, 17 R407). -/
def matFull (c : Ctx) : Bool :=
  (c.s.ephGrid c.g).isNone && (match matQ? c.s (coreNo c) with | none => false | some q => decide (64 ≤ (q.cmds.filter MatCmd.isCommand).length))

/-- A matrix command as its issue captures it. -/
def mkCmd (c : Ctx) (kind : MatKind) (word aux : Word) (ha hb : Nat) (slot : BitVec 3) (px : Option Mxw) : MatCmd :=
  { id := c.s.nextId, group := c.g.id, mask := c.f.mask, pc := c.f.pc, index := c.g.cmds, kind := kind, word := word, aux := aux, ha := ha,
    hb := hb, slot := slot.setWidth 32, px := xw px, rel := relOf c px, smscale := c.g.smscale, joint := none, batch := c.g.nextBatch,
    fills := [], quantum := 0, latched := false, started := false, failed := none, aTiles := [], bTiles := [] }

/-- The command enters the queue (14 R342). -/
def sendCmd (c : Ctx) (g : Group) (m : MatCmd) : UnitRes :=
  if matFull c then .wait
  else .done (emit ({ c.s with nextId := c.s.nextId + 1 }.setGroup g) c.g.id (.matrix (coreNo c) m))

/-- Sends a matrix command of the group, which its order counts. -/
def issueCmd (c : Ctx) (m : MatCmd) : UnitRes := sendCmd c { c.g with cmds := c.g.cmds + 1 } m

/-- A stream operand's handle: bound to a stream, with the slot's format (14 R347). -/
def streamOk (c : Ctx) (h : BitVec 4) (code : BitVec 6) : Bool :=
  match c.g.handle? h.toNat with | none => false | some x => (streamOf x).isSome && x.format == code.setWidth 8

/-- A handle that is bound to a scratchpad tile. -/
def tileHandle (c : Ctx) (h : BitVec 4) : Option Handle :=
  match c.g.handle? h.toNat with | none => none | some x => if x.dest.getLsbD 31 then some x else none

/-- The window address of a slice offset, as a trap reports it. -/
def sliceVa (off : Nat) : Dword := 0xFFFE000000000000#64 + BitVec.ofNat 64 off

/-- The slice size of the group's team. -/
def sliceSize (c : Ctx) : Nat := match c.s.team? c.g.team with | none => 0 | some t => t.sliceLen

/-- Step 8 of a trap without an address. -/
def stop8 (c : Ctx) (cause : Byte) : UnitRes := .trap cause c.f.mask 0

/-! ### MMA (14 R355) and its joint form (14 R351, R352) -/

/-- The format slot's descriptor, element format and scale form. -/
def slotOf (c : Ctx) (s : BitVec 3) : Word := slotWord c.s c.g s.toNat

/-- The checks of step 8 that MMA and MMAS share: the command word, the accumulator type, K, and the handles (14 R347, R355, 15 R373). -/
def mmaChecks (c : Ctx) (w : Word) (a b : BitVec 4) (s : BitVec 3) : Option UnitRes :=
  let sw := slotOf c s
  match slotElem sw with
  | none => some (stop8 c causeFmtslot)
  | some f =>
    let ch := chunkOf f (slotScale sw)
    if cwLegal w false = false ∨ ch.2 ≠ cwType w ∨ cwK w % ch.1 ≠ 0 then some (stop8 c causeIllegal)
    else if streamOk c a (sw.extractLsb' 0 6) = false ∨ streamOk c b (sw.extractLsb' 0 6) = false then some (stop8 c causeTilehdr)
    else none

/-- The tiles of an MMA: its output, and the statistics tile when a relation is named (14 R345). -/
def mmaTiles (px : Option Mxw) (w _aux : Word) : List (Nat × Nat) :=
  [(cwBase w, cwTiles w + if (xw px).rel = 0 then 0 else 1)]

/-- MMA (R355). -/
def execMma (px : Option Mxw) (d : BitVec 5) (a b : BitVec 4) (n : BitVec 3) (s : State) : Host.Outcome State Fault Refusal :=
  runUnit s (matSpec px d false (mmaTiles px) [a, b] (some n) fun f _ => mmaAccepts f) fun c =>
    let w := cmdWord c d
    if mxGuard c px = 0 then .done c.s
    else match mmaChecks c w a b n with
      | some r => r
      | none => issueCmd c (mkCmd c .mma w (auxWord c d) a.toNat b.toNat n px)

/-- MMA of a gang (R351): the j-th joint command of the group, which waits at the rendezvous latch. -/
def execMmaGang (px : Option Mxw) (d : BitVec 5) (a b : BitVec 4) (n : BitVec 3) (s : State) : Host.Outcome State Fault Refusal :=
  runUnit s (matSpec px d false (mmaTiles px) [a, b] (some n) fun f _ => mmaAccepts f) fun c =>
    let w := cmdWord c d
    let ms := gangMembers c.g.gang
    if mxGuard c px = 0 then .done c.s
    else match mmaChecks c w a b n with
      | some r => r
      | none =>
        if ms = [] ∨ 512 < ms.length * cwN w then stop8 c causeIllegal
        else
          let m := mkCmd c .mma w (auxWord c d) a.toNat b.toNat n px
          sendCmd c { c.g with cmds := c.g.cmds + 1, joints := c.g.joints + 1 }
            { m with joint := some (c.g.joints, ms, (c.g.gang.extractLsb' 3 3).toNat) }

/-! ### MMAS and MMAP (15 R373, R375) -/

/-- MMAS (R373): its score tiles and their statistics tile. -/
def execMmas (px : Option Mxw) (d : BitVec 5) (a b : BitVec 4) (n : BitVec 3) (s : State) : Host.Outcome State Fault Refusal :=
  runUnit s (matSpec px d false (fun w _ => [(cwBase w, cwTiles w + 1)]) [a, b] (some n) fun f _ => mmaAccepts f) fun c =>
    let w := cmdWord c d
    if mxGuard c px = 0 then .done c.s
    else if cwLegal w false = true ∧ cwType w ≠ 0 then stop8 c causeIllegal
    else match mmaChecks c w a b n with
      | some r => r
      | none => issueCmd c (mkCmd c .mmas w (auxWord c d) a.toNat b.toNat n px)

/-- The P tiles of an MMAP and its P statistics tile. -/
def pTiles (w aux : Word) : Nat × Nat := ((aux.extractLsb' 0 7).toNat, (cwM w / 32) * (cwK w / 32))

/-- MMAP (R375): its output with its statistics tile, and the P tiles with theirs. -/
def execMmap (px : Option Mxw) (d : BitVec 5) (b : BitVec 4) (n : BitVec 3) (s : State) : Host.Outcome State Fault Refusal :=
  runUnit s (matSpec px d false (fun w x => [(cwBase w, cwTiles w + 1), ((pTiles w x).1, (pTiles w x).2 + 1)]) [b] (some n)
      fun f _ => mmapAccepts f) fun c =>
    let w := cmdWord c d
    let aux := auxWord c d
    if mxGuard c px = 0 then .done c.s
    else if cwLegal w false = false ∨ cwType w ≠ 0 ∨ (cwK w ≠ 32 ∧ cwK w ≠ 64 ∧ cwK w ≠ 128) ∨ aux.extractLsb' 7 25 ≠ 0 then
      stop8 c causeIllegal
    else if streamOk c b ((slotOf c n).extractLsb' 0 6) = false then stop8 c causeTilehdr
    else issueCmd c (mkCmd c .mmap w aux 0 b.toNat n px)

/-! ### MTR (14 R356 to R358) -/

/-- Offset of the data of a scratchpad tile with L labels (10 R255). -/
def tileDataOff (l : Nat) : Nat := 128 * ((16 + 4 * l + 127) / 128)

/-- Blocks of a tile of H × W positions. -/
def tileBlocks (h w : Nat) : Nat := ((h + 31) / 32) * ((w + 31) / 32)

/-- Bytes of a scratchpad tile: header, labels, data, and a scale byte for each block of an e8 form (10 R255). -/
def tileBytes (f : Elem) (e8 : Bool) (h w l : Nat) : Nat :=
  tileDataOff l + tileBlocks h w * (128 * f.bits) + if e8 then tileBlocks h w else 0

/-- The slice offset of a tile-bound handle (10 R274). -/
def tileBase (h : Handle) : Nat := 128 * (h.dest.extractLsb' 0 17).toNat

/-- The last FEED of a handle, by its feeder. -/
def fillOf (h : Handle) : List (Nat × Word) := if h.lastFeed = 0 then [] else [((h.dest.extractLsb' 28 2).toNat, h.lastFeed)]

/-- MTR (R356): the checks of its handles, of the tile's place and of the activation table are made at issue. -/
def execMtr (px : Option Mxw) (d : BitVec 5) (a b : BitVec 4) (n : BitVec 3) (s : State) : Host.Outcome State Fault Refusal :=
  let m := xw px
  runUnit s (matSpec px d false (fun w _ => [(cwBase w, cwTiles w)]) (if m.bias then [a, b] else [a]) (if m.rq then some n else none)
      fun _ form => decide (form < 2)) fun c =>
    let w := cmdWord c d
    let aux := (auxWord c d).toNat
    let sw := slotOf c n
    let code := if m.rq then sw.extractLsb' 0 6 else accCode (cwType w)
    if mxGuard c px = 0 then .done c.s
    else if cwLegal w false = false ∨ (cwType w = 1 ∧ (m.bias ∨ m.act)) then stop8 c causeIllegal
    else match tileHandle c a, elemOf code with
      | some h, some f =>
        let bias := if m.bias then tileHandle c b else none
        if h.hasLabels = true ∨ h.format ≠ code.setWidth 8 ∨ (m.bias = true ∧ bias.isNone = true) then stop8 c causeTilehdr
        else
          let e8 := m.rq && decide (slotScale sw = 1)
          if sliceSize c < tileBase h + tileBytes f e8 (cwM w) (cwN w) 0 then .trap causeAccess c.f.mask (sliceVa (tileBase h))
          else if m.act = true ∧ aux % 128 ≠ 0 then .trap causeMisalign c.f.mask (sliceVa aux)
          else if m.act = true ∧ sliceSize c < aux + 2048 then .trap causeAccess c.f.mask (sliceVa aux)
          else
            let fills := fillOf h ++ (match bias with | none => [] | some x => fillOf x)
            issueCmd c { mkCmd c .mtr w (auxWord c d) a.toNat b.toNat n px with fills := fills }
      | _, _ => stop8 c causeTilehdr

/-! ### MZERO, MLDA, MSTA and MNORM (14 R359) -/

/-- The tiles of a MACC form, with the statistics tile when its bit is set. -/
def maccTiles (w _aux : Word) : List (Nat × Nat) := [(cwBase w, cwTiles w + if w.getLsbD 7 then 1 else 0)]

/-- A MACC form; `copies` for those that read or write the slice at the auxiliary offset. -/
def maccOp (kind : MatKind) (copies : Bool) (px : Option Mxw) (d : BitVec 5) (s : State) : Host.Outcome State Fault Refusal :=
  runUnit s (matSpec px d true maccTiles [] none fun _ _ => true) fun c =>
    let w := cmdWord c d
    let aux := (auxWord c d).toNat
    let bytes := 4096 * (cwTiles w + if w.getLsbD 7 then 1 else 0)
    if mxGuard c px = 0 then .done c.s
    else if cwLegal w true = false then stop8 c causeIllegal
    else if copies = true ∧ aux % 128 ≠ 0 then .trap causeMisalign c.f.mask (sliceVa aux)
    else if copies = true ∧ sliceSize c < aux + bytes then .trap causeAccess c.f.mask (sliceVa aux)
    else issueCmd c (mkCmd c kind w (auxWord c d) 0 0 0 px)

/-- MZERO (R359). -/
def execMzero (px : Option Mxw) (d : BitVec 5) (s : State) : Host.Outcome State Fault Refusal := maccOp .mzero false px d s

/-- MLDA (R359). -/
def execMlda (px : Option Mxw) (d : BitVec 5) (s : State) : Host.Outcome State Fault Refusal := maccOp .mlda true px d s

/-- MSTA (R359). -/
def execMsta (px : Option Mxw) (d : BitVec 5) (s : State) : Host.Outcome State Fault Refusal := maccOp .msta true px d s

/-- MNORM (R359): type f32, no statistics bit; the statistics tile is the one after its output. -/
def execMnorm (px : Option Mxw) (d : BitVec 5) (s : State) : Host.Outcome State Fault Refusal :=
  runUnit s (matSpec px d false (fun w _ => [(cwBase w, cwTiles w + 1)]) [] none fun _ _ => true) fun c =>
    let w := cmdWord c d
    if mxGuard c px = 0 then .done c.s
    else if cwLegal w false = false ∨ cwType w ≠ 0 then stop8 c causeIllegal
    else issueCmd c (mkCmd c .mnorm w (auxWord c d) 0 0 0 px)

/-! ### MBATCH, MWAIT and MSTAT (14 R353, R354, R360) -/

/-- MBATCH (R353): closes a batch and writes its number. -/
def execMbatch (d : BitVec 6) (s : State) : Host.Outcome State Fault Refusal :=
  runUnit s (fun _ => { ss := [d.toNat], noMethod := true, region := true }) fun c =>
    let n := c.g.nextBatch
    doneG c { c.g.setS d.toNat n with nextBatch := nextNumber n, batches := c.g.batches ++ [(n, c.g.cmds)] }

/-- Whether MBATCH has returned a number: compared modulo 2^32 within 2^31 (14 R353). -/
def batchKnown (g : Group) (n : Word) : Bool :=
  match g.batches.getLast? with | none => false | some b => seqLe n b.1

/-- MWAIT (R354). -/
def execMwait (px : Option Modw) (a : BitVec 6) (s : State) : Host.Outcome State Fault Refusal :=
  runUnit s (fun _ => { words := unitWords px, ss := [a.toNat], noMethod := true, noHandler := true, path := true, quantum := true }) fun c =>
    let n := c.g.getS a.toNat
    if n = 0 then .done c.s
    else if batchKnown c.g n = false then stop8 c causeQueue
    else if batchDone c.s c.g n then .done c.s
    else doneG c (c.g.modFrag c.f.id fun f => { f with wait := some (.batch n) })

/-- MSTAT (R360): it holds its place in the matrix queue, and its interlocked result takes the field when the earlier commands are
complete; without active lanes it has no effect. -/
def mstatOp (field : Nat) (px : Option Modw) (d : BitVec 7) (a : BitVec 6) (s : State) : Host.Outcome State Fault Refusal :=
  runUnit s (fun c => { words := unitWords px, vs := [vr c d], ss := [a.toNat],
                        regx := accBeyond c.g ((c.g.getS a.toNat).extractLsb' 0 7).toNat 1, noMethod := true, quantum := true }) fun c =>
    let sel := c.g.getS a.toNat
    let lanes := active c (mw px)
    if sel.extractLsb' 9 23 ≠ 0 then stop8 c causeIllegal
    else if lanes = 0 then .done c.s
    else
      let (oid, s1) := c.s.fresh
      let m := { mkCmd { c with s := s1 } (.mstat field oid (vr c d) lanes) sel 0 0 0 0 none with index := c.g.cmds }
      let s2 := addOut c { s1 with nextId := s1.nextId + 1 }
        { newOut oid .compute [.v (vr c d)] 15 c.f.pc with interlock := true, awaits := [0] }
      .done (emit s2 c.g.id (.matrix (coreNo c) m))

/-- MSTAT.MAX (R360). -/
def execMstatMax (px : Option Modw) (d : BitVec 7) (a : BitVec 6) (s : State) : Host.Outcome State Fault Refusal := mstatOp 0 px d a s

/-- MSTAT.SUM (R360). -/
def execMstatSum (px : Option Modw) (d : BitVec 7) (a : BitVec 6) (s : State) : Host.Outcome State Fault Refusal := mstatOp 1 px d a s

/-- MSTAT.FLAGS (R360). -/
def execMstatFlags (px : Option Modw) (d : BitVec 7) (a : BitVec 6) (s : State) : Host.Outcome State Fault Refusal := mstatOp 2 px d a s

/-- MSTAT.SKIP (R360). -/
def execMstatSkip (px : Option Modw) (d : BitVec 7) (a : BitVec 6) (s : State) : Host.Outcome State Fault Refusal := mstatOp 3 px d a s

/-! ### Relation words and MLBL (15 R362 to R365, R371) -/

/-- A term of a relation word. -/
structure RelTerm where
  op : Nat
  rf : Nat
  cf : Nat
  k  : Int
  deriving DecidableEq, Repr

/-- Term t of a relation word (15 R363). -/
def relTerm (w : BitVec 128) (t : Nat) : RelTerm :=
  let x := w.extractLsb' (22 * t) 22
  { op := (x.extractLsb' 18 4).toNat, rf := (x.extractLsb' 16 2).toNat, cf := (x.extractLsb' 14 2).toNat, k := (x.extractLsb' 0 14).toInt }

/-- The cuts a, b and c. -/
def relCuts (w : BitVec 128) : Nat × Nat × Nat :=
  ((w.extractLsb' 109 5).toNat, (w.extractLsb' 114 5).toNat, (w.extractLsb' 119 5).toNat)

/-- Whether a term is legal: its operation is listed, and every field that the operation does not use is zero (15 R364, R365). -/
def RelTerm.legal (t : RelTerm) : Bool :=
  let rf := t.rf == 0
  let cf := t.cf == 0
  let k := t.k == 0
  match t.op with
  | 0 => rf && cf && k
  | 1 | 2 | 3 | 4 | 5 | 6 | 11 | 12 => k
  | 7 | 8 => true
  | 9 => cf
  | 10 => rf
  | _ => false

/-- A legal relation word (15 R365). -/
def relLegal (w : BitVec 128) : Bool :=
  let (a, b, c) := relCuts w
  w.extractLsb' 124 4 == 0 && decide (a ≤ b) && decide (b ≤ c) && w.extractLsb' 91 2 != 3 && w.extractLsb' 89 2 != 3 &&
    [0, 1, 2, 3].all fun t => (relTerm w t).legal

/-- MLBL (R371). -/
def execMlbl (px : Option Modw) (d : BitVec 3) (a : BitVec 5) (s : State) : Host.Outcome State Fault Refusal :=
  runUnit s (fun _ => { words := unitWords px, ss := pairRegs a, noMethod := true }) fun c =>
    match readRecord c (c.g.getPair (pairOf a)) 16 16 with
    | .error r => r
    | .ok (s, bs) =>
      let w := BitVec.ofNat 128 (natOfBytes bs)
      if relLegal w = false then .trap causeRelword c.f.mask (c.g.getPair (pairOf a))
      else .done (s.modTeam c.g.team fun t => { t with rels := sput t.rels d.toNat w })

end Sys2Proof.Machine
end

