-- ==== Sys2Proof/Machine/Shape.lean ====
section
/-!
DEFINITION. Shape records and the padded view (10 R249 to R253), block pools and block tables (10 R267 to R271), and the accesses of
feeders and copy engines to the elements of a record.
-/

namespace Sys2Proof.Machine

/-! ### Shape records (10 R249, R253) -/

/-- A shape record, field by field. -/
structure Shape where
  version : Nat
  rank    : Nat
  /-- Addressing: 0 dense, 1 gather, 2 block table. -/
  mode    : Nat
  zeroPol : Bool
  code    : BitVec 6
  swizzle : Nat
  gdim    : Nat
  rows    : Bool
  labels  : Bool
  scale   : Nat
  rne     : Bool
  resv    : Nat
  pad     : Nat
  base    : Nat
  rpt     : Nat
  lab     : Int
  scl     : Int
  aux     : Int
  plane   : Nat
  ext     : List Nat
  lo      : List Nat
  hi      : List Nat
  stride  : List Int
  deriving DecidableEq, Repr

/-- The record in 64 bytes (10 R249). -/
def parseShape (bs : List Byte) : Shape :=
  let n := fieldOf bs
  let c := n 0 4
  let b := n 8 8
  let s32 := fun (off : Nat) => toSigned 32 (n off 4)
  { version := bitsOf c 3 0, rank := bitsOf c 6 4, mode := bitsOf c 8 7, zeroPol := bitsOf c 9 9 == 1,
    code := BitVec.ofNat 6 (bitsOf c 15 10), swizzle := bitsOf c 19 16, gdim := bitsOf c 22 20, rows := bitsOf c 23 23 == 1,
    labels := bitsOf c 24 24 == 1, scale := bitsOf c 26 25, rne := bitsOf c 27 27 == 1, resv := bitsOf c 31 28, pad := n 4 2,
    base := bitsOf b 56 0, rpt := bitsOf b 63 57, lab := s32 0x10, scl := s32 0x14, aux := s32 0x18, plane := n 0x1C 4,
    ext := (List.range 5).map fun k => n (0x20 + 2 * k) 2,
    lo := [n 0x2A 1, n 0x2C 1, bitsOf (n 7 1) 3 0, bitsOf (n 0x2E 1) 3 0, bitsOf (n 0x2F 1) 3 0],
    hi := [n 0x2B 1, n 0x2D 1, bitsOf (n 7 1) 7 4, bitsOf (n 0x2E 1) 7 4, bitsOf (n 0x2F 1) 7 4],
    stride := toSigned 8 (n 6 1) :: (List.range 4).map fun k => s32 (0x30 + 4 * k) }

/-- The element format of a record; a reserved code gives one that the well-formedness check has refused. -/
def Shape.elem (r : Shape) : Elem := (elemOf r.code).getD (.int false 8)

/-- Extent of dimension k, and its padded extent P_k (10 R251). -/
def Shape.e (r : Shape) (k : Nat) : Nat := r.ext.getD k 0 + 1
def Shape.p (r : Shape) (k : Nat) : Nat := r.lo.getD k 0 + r.e k + r.hi.getD k 0

/-- Rows and columns of the padded view (10 R251). -/
def Shape.viewRows (r : Shape) : Nat := r.p 1 * r.p 2 * r.p 3 * r.p 4
def Shape.viewCols (r : Shape) : Nat := r.p 0

/-- Rows of the source: the dimensions but the innermost, row-major (04 R117). -/
def Shape.srcRows (r : Shape) : Nat := r.e 1 * r.e 2 * r.e 3 * r.e 4

/-- Bytes of an element that its address is aligned to; 1 for a 4-bit format. -/
def elemAlign (f : Elem) : Nat := match f with | .plane _ => 64 | _ => max 1 (f.bits / 8)

/-- A record that is well formed (10 R253). -/
def shapeOk (r : Shape) : Bool :=
  match elemOf r.code with
  | none => false
  | some f =>
    let beyond := (List.range 5).all fun k => k < r.rank ||
      (r.ext.getD k 0 == 0 && r.lo.getD k 0 == 0 && r.hi.getD k 0 == 0 && r.stride.getD k 0 == 0)
    r.version == 1 && r.resv == 0 && r.mode != 3 && decide (r.swizzle ≤ 3) && decide (1 ≤ r.rank) && decide (r.rank ≤ 5) && beyond &&
      (f.isPlane || r.plane == 0) && (r.mode == 1 || r.gdim == 0) && (r.mode != 0 || r.aux == 0) && scaleAccepts r.scale f &&
      (f.isPlane || !r.rne) && r.plane % 64 == 0 && (r.mode != 1 || (decide (1 ≤ r.gdim) && decide (r.gdim < r.rank))) &&
      (r.mode != 2 || (r.rank == 2 && !f.isPlane && r.scale != 1)) && r.base % elemAlign f == 0

/-! ### Positions (10 R251, R252) -/

/-- Whether a position lies in the source: every index within its extent. -/
def Shape.inside (r : Shape) (q : List Nat) : Bool :=
  (List.range 5).all fun k => decide (r.lo.getD k 0 ≤ q.getD k 0) && decide (q.getD k 0 < r.lo.getD k 0 + r.e k)

/-- The padded indices q0 to q4 of a position of the padded view. -/
def Shape.padded (r : Shape) (row col : Nat) : List Nat :=
  [col, row % r.p 1, row / r.p 1 % r.p 2, row / (r.p 1 * r.p 2) % r.p 3, row / (r.p 1 * r.p 2 * r.p 3)]

/-- The source indices of a real position, with the gather index replaced; none where the position is synthesised. -/
def Shape.source (r : Shape) (index : List (Nat × Option Nat)) (row col : Nat) : Option (List Nat) :=
  let q := r.padded row col
  if r.inside q then
    let i := (List.range 5).map fun k => q.getD k 0 - r.lo.getD k 0
    if r.mode = 1 then
      match (index.find? fun x => x.1 == i.getD r.gdim 0).bind Prod.snd with
      | none => none
      | some x => some (i.mapIdx fun k v => if k = r.gdim then x else v)
    else some i
  else none

/-- Canonical coordinates of source indices, modulo 2^32 (04 R117). -/
def Shape.canon (r : Shape) (i : List Nat) : Nat × Nat :=
  let n := fun (k : Nat) => i.getD k 0
  ((n 1 + r.e 1 * (n 2 + r.e 2 * (n 3 + r.e 3 * n 4))) % pow2 32, n 0 % pow2 32)

/-- The element offset of source indices (10 R250). -/
def Shape.offset (r : Shape) (i : List Nat) : Int :=
  (List.range 5).foldl (fun a k => a + r.stride.getD k 0 * ((i.getD k 0 : Nat) : Int)) 0

/-- The pad value as a code of the format; of a plane format, as a 32-bit mantissa (10 R251).  Of p6 bits [7:6] are zero, as every writer of it
places them (04 R104). -/
def Shape.padCode (r : Shape) : Nat :=
  match r.elem with
  | .plane _ => r.pad * pow2 16
  | .float f =>
    if f.bits = 64 then
      let s := r.pad / pow2 15
      let m := r.pad % pow2 7
      if r.pad / pow2 7 % 256 = 255 then s * pow2 63 + 0x7FF * pow2 52 + m * pow2 45 else fmtF64.encode 0 false (fmtBf16.decode r.pad)
    else if f.bits = 32 then r.pad * pow2 16 else r.pad % pow2 f.bits
  | .int sg w =>
    if w = 64 then (if sg then wrapNat 64 (toSigned 16 r.pad) else r.pad) else if w = 32 then r.pad * pow2 16 else r.pad % pow2 w
  | .p6 => r.pad % 64

/-- The pad value as the code that a read of the record's width gives: of a plane format the leading planes, rounded in RNE mode. -/
def Shape.padRead (r : Shape) : Nat :=
  match r.elem with
  | .plane n =>
    let m := r.padCode
    let qs := (List.range (planesRead n r.rne)).map fun j => m / pow2 (28 - 4 * j) % 16
    wrapNat (4 * n) (planeMant n qs)
  | _ => r.padCode

/-! ### Accesses of engines (10 R259, R260) -/

/-- Why an engine's access does not complete: a failure with its status and address, or a page that is not present. -/
inductive EngErr where
  | fail (status : Byte) (addr : Dword)
  | page (addr : Dword) (kind : Byte) (write : Bool)
  deriving DecidableEq, Repr

def errCmd : Byte := 0x01
def errAccess : Byte := 0x02
def errMem : Byte := 0x03
def errPage : Byte := 0x04
def errIndex : Byte := 0x05
def errPriv : Byte := 0x06
def errHdr : Byte := 0x07
def errAborted : Byte := 0x08
def errMatch : Byte := 0x09
def errTimeout : Byte := 0x0A

/-- Who an engine works for: rights, the view its reads take, whether Ephemeris mode confines it, its requester word, and the team,
quantum and grid-wide group id its writes are made for (17 R401, R407, R409); and its queue. -/
structure EngCtx where
  rights : Rights
  view   : View
  eph    : Bool
  req    : Word
  team   : Nat
  gid    : Nat
  q      : Nat
  queue  : EngQueue := .none
  /-- The requests of the batch that a pool method serves (17 R406). -/
  asks   : List Request := []

/-- The address of an engine's access as a 57-bit virtual address (08 R208). -/
def engAddr (x : Int) : Option Dword := if 0 ≤ x ∧ x < (pow2 57 : Nat) then some (BitVec.ofNat 64 x.toNat) else none

/-- The flits of a running command that are not yet acknowledged (19 R426). -/
def noteWire (s : State) (q : EngQueue) (va : Dword) (fl : List (Nat × BitVec 12)) : State :=
  let more := fl.map fun x => (x.1, x.2, va)
  if fl.isEmpty then s
  else match q with
    | .feeder core n => modFeeder s core n fun x => { x with wire := x.wire ++ more }
    | .copy part n => modCopyQ s part n fun x => { x with wire := x.wire ++ more }
    | .home _ | .none => s

/-- The translation and checks of one access of an engine (08 R218, 10 R259; 17 R409): an uncorrectable error or an unreachable tier
is logged and ends it, but for a write that covers a 16-byte word whole (08 R224); so does a device that refuses it (19 R431).  An address need
not be a multiple of the access's size: its bytes lie one after another from the first byte's translation (DESIGN CHOICE,
notes/assumptions/105.md).  That a page of the partition lies in another's memory quarters stops no access (DESIGN CHOICE,
notes/assumptions/106.md). -/
def engLoc (s : State) (e : EngCtx) (a : Access) (x : Int) (n : Nat) : Except (State × EngErr) (State × Loc) :=
  match engAddr x with
  | none => .error (s, .fail errAccess (BitVec.ofInt 64 x))
  | some va =>
    match translate s e.rights none a va 0 with
    | .access => .error (s, .fail errAccess va)
    | .absent k => .error (s, .page va k (match a with | .load => false | _ => true))
    | .loc l t leaf =>
      if e.eph = true ∧ (t = 1 ∨ t = 3) then .error (s, .fail errAccess va)
      else
        let write := match a with | .load => false | _ => true
        let s1 := useLeaves s e.rights.part [.loc l t leaf] write
        let whole := a = .store ∧ 16 ≤ n
        if (e.view.hasError s1 l && !whole) || !(reachable s1 e.rights.part l) then
          .error (logAccess s1 e.rights.part l va 0 e.req, .fail errMem va)
        else if refusedRemote l then .error (s1, .fail errAccess va)
        else
          let sent := sendFlit s1 e.rights.part l
          .ok (noteWire sent.1 e.queue va sent.2, l)

/-- A byte as an engine reads it: of a pool, a pool method that has read it in its first access takes what that gave (19 R436). -/
def engByte (s : State) (e : EngCtx) (l : Loc) : Byte :=
  match e.queue, l with
  | .home h, .mem k =>
    match (s.home? h).bind Home.found with
    | some found => if l.pooled then sget 0 found.2 k else readLoc s e.view l
    | none => readLoc s e.view l
  | _, _ => readLoc s e.view l

/-- Reads `n` bytes of memory for an engine. -/
def engRead (s : State) (e : EngCtx) (x : Int) (n : Nat) : Except (State × EngErr) (State × Nat) :=
  match engLoc s e .load x n with
  | .error r => .error r
  | .ok (s1, l) => .ok (s1, natOfBytes ((List.range n).map fun i => engByte s1 e (l.plus i)))

/-- Adds to a snapshot register of the copy engine that works for a queue: 0 commands completed, 1 bytes written, 2 pauses (20 R454). -/
def countEngine (s : State) (q : EngQueue) (reg n : Nat) : State :=
  match q with
  | .copy part k => s.count 4 (copyEngine s part k) reg n
  | _ => s

/-- A pool method's write of a pool shows in what it has read there (19 R436). -/
def notePool (s : State) (e : EngCtx) (l : Loc) (bs : List Byte) : State :=
  match e.queue, l with
  | .home h, .mem k =>
    if l.pooled then
      s.modHome h fun x => { x with
        stores := true, found := x.found.map fun y => (y.1, (List.range bs.length).foldl (fun c i => sset 0 c (k + i) (bs.getD i 0)) y.2) }
    else s
  | _, _ => s

/-- Places bytes for an engine, and counts those that a copy engine writes (20 R454): into the phase's writes of its team in Ephemeris mode
(17 R401); those of a pool method are for everyone, and stand among the writes of the teams that asked (17 R406). -/
def engPut (s : State) (e : EngCtx) (l : Loc) (bs : List Byte) : State :=
  countEngine (if e.eph then writePhase s e.team e.q e.gid l bs else notePool (writeLoc (noteBatch s e.asks l bs) l bs) e l bs) e.queue 1 bs.length

/-- Writes `n` bytes of memory for an engine. -/
def engWrite (s : State) (e : EngCtx) (x : Int) (n v : Nat) : Except (State × EngErr) State :=
  match engLoc s e .store x n with
  | .error r => .error r
  | .ok (s1, l) => .ok (engPut s1 e l (bytesOfNat n v))

/-- The nibble at a nibble address. -/
def engNibble (s : State) (e : EngCtx) (na : Int) : Except (State × EngErr) (State × Nat) :=
  match engRead s e (na / 2) 1 with
  | .error r => .error r
  | .ok (s1, b) => .ok (s1, if na % 2 = 0 then b % 16 else b / 16)

/-- Writes the nibble at a nibble address and leaves its neighbour (10 R265). -/
def engPutNibble (s : State) (e : EngCtx) (na : Int) (v : Nat) : Except (State × EngErr) State :=
  match engLoc s e .update (na / 2) 1 with
  | .error r => .error r
  | .ok (s1, l) =>
    let b := (readLoc s1 e.view l).toNat
    .ok (engPut s1 e l [BitVec.ofNat 8 (if na % 2 = 0 then b / 16 * 16 + v % 16 else b % 16 + v % 16 * 16)])

/-- The 64 bytes of a record or descriptor at an address that is a multiple of 64. -/
def engRecord (s : State) (e : EngCtx) (a : Int) : Except (State × EngErr) (State × List Byte) :=
  match engRead s e a 64 with
  | .error r => .error r
  | .ok (s1, x) => .ok (s1, bytesOfNat 64 x)

/-! ### Block pools and block tables (10 R267 to R269) -/

/-- A block pool descriptor. -/
structure Pool where
  block  : Nat
  base   : Nat
  count  : Nat
  free   : Nat
  refs   : Nat
  labels : Nat
  stack  : Nat
  deriving DecidableEq, Repr

/-- A descriptor that is well formed (10 R271). -/
def poolOf (bs : List Byte) : Option Pool :=
  let n := fieldOf bs
  if n 0 2 = 1 ∧ n 2 1 < 2 ∧ n 3 1 = 0 ∧ n 4 4 ≠ 0 ∧ n 4 4 % 64 = 0 ∧ n 0x10 4 ≠ 0 ∧ n 0x10 4 ≤ pow2 28 ∧ n 0x30 16 = 0 then
    some { block := n 4 4, base := n 8 8, count := n 0x10 4, free := n 0x14 4, refs := n 0x18 8, labels := n 0x20 8, stack := n 0x28 8 }
  else none

/-- Entries of a core's block translation cache (10 R269). -/
def blockTlbSize : Nat := 512

/-- A cache of a core with an entry taken in: a full one gives up an entry, and which is open (10 R269). -/
def takeEntry (victim core key : Nat) (w : Word) (l : List (Nat × Nat × Word)) : List (Nat × Nat × Word) :=
  let mine := l.filter fun x => x.1 == core && x.2.1 != key
  let rest := l.filter fun x => x.1 != core
  rest ++ (if mine.length < blockTlbSize then mine else mine.eraseIdx (victim % mine.length)) ++ [(core, key, w)]

/-- An entry of a block table as a feeder reads it, through the block translation cache of its core: an entry that was written directly since
it came into the cache is the old one or memory's, which is open (10 R269). -/
def tableEntry (s : State) (e : EngCtx) (a : Int) : Except (State × EngErr) (State × Nat) :=
  match engRead s e a 4 with
  | .error r => .error r
  | .ok (s1, x) =>
    match e.queue with
    | .feeder core _ =>
      let key := a.toNat
      let keep := fun (s : State) => { s with free := s.free + 1 }.modPart e.rights.part fun p =>
        { p with blockTlb := takeEntry (Config.cacheVictim s.free) core key (BitVec.ofNat 32 x) p.blockTlb }
      match (s1.part? e.rights.part).bind fun p => p.blockTlb.find? fun y => y.1 == core && y.2.1 == key with
      | none => .ok (keep s1, x)
      | some y =>
        if y.2.2.toNat = x then .ok (s1, x)
        else if Config.staleLeaf s1.free then .ok ({ s1 with free := s1.free + 1 }, y.2.2.toNat)
        else .ok (keep { s1 with free := s1.free + 1 }, x)
    | _ => .ok (s1, x)

/-- The block of a token, and the pool: the entry is checked for its reserved bits and its index (10 R268, R271). -/
def tokenBlock (s : State) (e : EngCtx) (r : Shape) (t : Nat) : Except (State × EngErr) (State × Pool × Nat) :=
  match engRecord s e (r.base + r.aux) with
  | .error x => .error x
  | .ok (s1, bs) =>
    match poolOf bs with
    | none => .error (s1, .fail errCmd (BitVec.ofInt 64 (r.base + r.aux)))
    | some p =>
      let a : Int := r.base + 4 * ((t / 16 : Nat) : Int)
      match tableEntry s1 e a with
      | .error x => .error x
      | .ok (s2, w) =>
        if bitsOf w 30 28 ≠ 0 then .error (s2, .fail errCmd (BitVec.ofInt 64 a))
        else if p.count ≤ bitsOf w 27 0 then .error (s2, .fail errIndex (BitVec.ofInt 64 a))
        else .ok (s2, p, bitsOf w 27 0)

/-! ### Elements and labels of a record (10 R250, R252) -/

/-- The byte address and the nibble address of an element that is not of a plane format. -/
def elemAddr (s : State) (e : EngCtx) (r : Shape) (i : List Nat) : Except (State × EngErr) (State × Int × Int) :=
  let f := r.elem
  if r.mode = 2 then
    let t := i.getD 1 0
    match tokenBlock s e r t with
    | .error x => .error x
    | .ok (s1, p, n) =>
      let o : Int := ((t % 16 : Nat) : Int) * r.stride.getD 1 0 + ((i.getD 0 0 : Nat) : Int) * r.stride.getD 0 0
      let b : Int := ((p.base + n * p.block : Nat) : Int)
      .ok (s1, b + o * ((f.bits / 8 : Nat) : Int), 2 * b + o)
  else
    let o := r.offset i
    .ok (s, r.base + o * ((f.bits / 8 : Nat) : Int), 2 * (r.base : Int) + o)

/-- The nibbles of an element's planes, plane 0 first, `n` of them left behind those that have been read; at an error, those that have come
(10 R260). -/
def engPlanes (e : EngCtx) (na : Int) (stride : Nat) : Nat → List Nat → State → Except (State × EngErr × List Nat) (State × List Nat)
  | 0, qs, s => .ok (s, qs)
  | n + 1, qs, s =>
    match engNibble s e (na + 2 * ((stride * qs.length : Nat) : Int)) with
    | .error (s1, y) => .error (s1, y, qs)
    | .ok (s1, q) => engPlanes e na stride n (qs ++ [q]) s1

/-- An error without how far a position had come. -/
def plainErr {α : Type} (r : Except (State × EngErr × List Nat) α) : Except (State × EngErr) α := r.mapError fun x => (x.1, x.2.1)

/-- The code of an element, of which some planes have been read: of a plane format the mantissa that the record's read mode gives, with the planes
it comes from (04 R102; 10 R258, R260). -/
def readCode (s : State) (e : EngCtx) (r : Shape) (i qs : List Nat) : Except (State × EngErr × List Nat) (State × Nat × List Nat) :=
  match r.elem with
  | .plane n =>
    match engPlanes e (2 * (r.base : Int) + r.offset i) r.plane (planesRead n r.rne - qs.length) qs s with
    | .error x => .error x
    | .ok (s1, all) => .ok (s1, wrapNat (4 * n) (planeMant n all), all)
  | f =>
    match elemAddr s e r i with
    | .error (s1, y) => .error (s1, y, [])
    | .ok (s1, a, na) => match if f.bits = 4 then engNibble s1 e na else engRead s1 e a (f.bits / 8) with
      | .error (s2, y) => .error (s2, y, [])
      | .ok (s2, c) => .ok (s2, c, [])

/-- The address of the scale of canonical coordinates, and its bytes; none for a record without scales (10 R250). -/
def scaleAddr (r : Shape) (rc : Nat × Nat) : Option (Int × Nat) :=
  let b : Int := r.base + r.scl
  match r.scale with
  | 1 =>
    let k := if r.rank = 1 then rc.2 / 1024 else (rc.1 / 32) * ((r.e 0 + 31) / 32) + rc.2 / 32
    some (b + (k : Nat), 1)
  | 2 => some (b + ((2 * (rc.1 * ((r.e 0 + 127) / 128) + rc.2 / 128) : Nat) : Int), 2)
  | 3 => some (b + ((4 * rc.1 : Nat) : Int), 4)
  | _ => none

/-- The stored scale of an element: the e8 code, or the code of a bf16 or f32 scale. -/
def readScale (s : State) (e : EngCtx) (r : Shape) (i : List Nat) : Except (State × EngErr) (State × Nat) :=
  match scaleAddr r (r.canon i) with
  | none => .ok (s, 127)
  | some (a, n) => engRead s e a n

/-- A stored scale as a number (04 R107); code 0xFF of e8 marks a NaN block (04 R103). -/
def scaleNum (form code : Nat) : Num :=
  match form with
  | 1 => if code = 255 then .nan else .fin false 1 ((code : Int) - 127)
  | 2 => fmtBf16.decode code
  | 3 => fmtF32.decode code
  | _ => .fin false 1 0

/-- A position of a record as it is read, from the planes that have been read on: an element with its stored scale, or none where it is
synthesised; at an error, the planes that have come (10 R260). -/
def readPosFrom (s : State) (e : EngCtx) (r : Shape) (index : List (Nat × Option Nat)) (row col : Nat) (qs : List Nat) :
    Except (State × EngErr × List Nat) (State × Option (Nat × Nat)) :=
  match r.source index row col with
  | none => .ok (s, none)
  | some i =>
    match readCode s e r i qs with
    | .error x => .error x
    | .ok (s1, c, all) =>
      match readScale s1 e r i with
      | .error (s2, y) => .error (s2, y, all)
      | .ok (s2, k) => .ok (s2, some (c, k))

/-- A position read from its first plane. -/
def readPos (s : State) (e : EngCtx) (r : Shape) (index : List (Nat × Option Nat)) (row col : Nat) :
    Except (State × EngErr) (State × Option (Nat × Nat)) := plainErr (readPosFrom s e r index row col [])

/-- The label of a row of the padded view, or of a column (10 R250, R251, R268); a synthesised one is 0.  The label of a gathered row is that of the
row it was gathered from, as its scale and coordinates are (10 R252; DESIGN CHOICE, notes/assumptions/105.md). -/
def readLabel (s : State) (e : EngCtx) (r : Shape) (index : List (Nat × Option Nat)) (n : Nat) :
    Except (State × EngErr) (State × Word) :=
  let word := fun (s : State) (a : Int) =>
    match engRead s e a 4 with
    | .error x => Except.error x
    | .ok (s1, x) => .ok (s1, BitVec.ofNat 32 x)
  let lab : Int := r.base + r.lab
  if r.rows then
    match r.source index n (r.lo.getD 0 0) with
    | none => .ok (s, 0)
    | some i =>
      if r.mode = 2 then
        match tokenBlock s e r (i.getD 1 0) with
        | .error x => .error x
        | .ok (s1, p, b) => if p.labels = 0 then .ok (s1, 0) else word s1 ((p.labels + 4 * (16 * b + i.getD 1 0 % 16) : Nat) : Int)
      else word s (lab + ((4 * (r.canon i).1 : Nat) : Int))
  else if r.lo.getD 0 0 ≤ n ∧ n < r.lo.getD 0 0 + r.e 0 then word s (lab + ((4 * (n - r.lo.getD 0 0) : Nat) : Int))
  else .ok (s, 0)

/-- Reads the gather indices that a window needs, before any data (10 R252): the source index of the gather dimension, and its word in
[0, B), or none under policy zero. -/
def readIndices (e : EngCtx) (r : Shape) (bound : Int) : List Nat → State → Except (State × EngErr) (State × List (Nat × Option Nat))
  | [], s => .ok (s, [])
  | k :: rest, s =>
    let a : Int := r.base + r.aux + 4 + 4 * (k : Int)
    match engRead s e a 4 with
    | .error x => .error x
    | .ok (s1, w) =>
      let x := toSigned 32 w
      if 0 ≤ x ∧ x < bound then
        match readIndices e r bound rest s1 with
        | .error y => .error y
        | .ok (s2, l) => .ok (s2, (k, some x.toNat) :: l)
      else if r.zeroPol then
        match readIndices e r bound rest s1 with
        | .error y => .error y
        | .ok (s2, l) => .ok (s2, (k, none) :: l)
      else .error (s1, .fail errIndex (BitVec.ofInt 64 a))

/-- The bound B and the indices of a window of `h` rows from a row of the padded view; 0 and none outside gather mode. -/
def windowIndices (s : State) (e : EngCtx) (r : Shape) (row0 h : Nat) : Except (State × EngErr) (State × Nat × List (Nat × Option Nat)) :=
  if r.mode ≠ 1 then .ok (s, 0, [])
  else
    match engRead s e (r.base + r.aux) 4 with
    | .error x => .error x
    | .ok (s1, b) =>
      let ks := ((List.range h).filterMap fun k =>
        let q := r.padded (row0 + k) (r.lo.getD 0 0)
        if r.inside q then some (q.getD r.gdim 0 - r.lo.getD r.gdim 0) else none).eraseDups
      match readIndices e r (b : Int) ks s1 with
      | .error x => .error x
      | .ok (s2, l) => .ok (s2, b, l)

/-- Whether a window lies inside the padded view (10 R258). -/
def Shape.holds (r : Shape) (row0 col0 h w : Nat) : Bool := decide (row0 + h ≤ r.viewRows) && decide (col0 + w ≤ r.viewCols)

/-- The page that an engine waits for: a fault record with its requester word, and the pause (10 R260, 08 R221). -/
def engPause (s : State) (e : EngCtx) (addr : Dword) (kind : Byte) (write : Bool) : State × Pause :=
  match faultRecord s e.rights.part kind (if write then 0x05 else 0x04) e.req addr with
  | some (n, s1) => (s1, { open_ := [n], failed := none })
  | none => (s, { open_ := [], failed := none, noRoom := some addr })

end Sys2Proof.Machine
end

