-- ==== Sys2Proof/Machine/EngineIssue.lean ====
section
/-!
DEFINITION. The issue of HBIND, FEED, CPY, QFENCE, QWAIT and COLL (10 R274 to R278, 19 R438; 17 R407, R409).  What the engines do with
the commands is in FeederEvents.lean, CopyEvents.lean and Collective.lean.
-/

namespace Sys2Proof.Machine

/-! ### What a handle is still used for -/

/-- Whether a FIFO of a core is free for a handle of a group: unbound, bound to that handle, or released by an exit (10 R274). -/
def fifoFree (s : State) (core n gid t : Nat) : Bool :=
  match fifo? s core n with
  | none => false
  | some f =>
    match f.bound with
    | none => true
    | some (g, h) => (g == gid && h == t) || (s.group? g).all Group.exited

/-- Whether commands of a group that has exited, and so has released a FIFO, still use it through the handle that was bound to it: what binds it
next waits for them (10 R274, 14 R350; DEDUCED, notes/assumptions/84.md). -/
def fifoInUse (s : State) (core n gid : Nat) : Bool :=
  match (fifo? s core n).bind Fifo.bound with
  | none => false
  | some (g, t) => g != gid && handleUsed s g t

/-! ### HBIND (10 R274) -/

/-- The legal destination words: a stream with its feeder and FIFO, or a tile with its feeder and place. -/
def destOk (w : Word) : Bool :=
  if w.getLsbD 31 then w.extractLsb' 17 11 == 0 && !(w.getLsbD 30) else w.extractLsb' 4 24 == 0 && !(w.getLsbD 30)

/-- The handle that HBIND writes (10 R254, R274); its last feed is 0 again too (DESIGN CHOICE, notes/assumptions/106.md). -/
def boundHandle (num : Nat) (addr : Dword) (dest : Word) (r : Shape) : Handle :=
  { num := num, record := addr, dest := dest, format := r.code.setWidth 8, swizzle := BitVec.ofNat 4 r.swizzle, labelRows := r.rows,
    hasLabels := r.labels, failed := false, failure := 0, failAddr := 0, delivered := 0, position := 0, lastFeed := 0 }

/-- HBIND once no use of the handle is left. -/
def hbindBody (t : Nat) (addr : Dword) (dest : Word) (c : Ctx) : UnitRes :=
  match readRecord c addr 64 64 with
  | .error r => r
  | .ok (s, bs) =>
    let r := parseShape bs
    if shapeOk r = false then stop8 c causeTilehdr
    else
      let h := boundHandle t addr dest r
      let core := coreNo c
      let free := match streamOf h with | none => true | some n => fifoFree s core n c.g.id t
      let inUse := match streamOf h with | none => false | some n => fifoInUse s core n c.g.id
      if destOk dest = false ∨ free = false then stop8 c causeQueue
      else if inUse then .wait
      else
        let mine := fun (f : Fifo) => f.core == core && f.bound == some (c.g.id, t)
        let clear := fun (f : Fifo) => { f with bound := none, tiles := [], discard := 0, pause := none, got := {} }
        let s1 : State := { s with fifos := s.fifos.map fun f => if mine f then clear f else f }
        let s2 := match streamOf h with
          | none => s1
          | some n => modFifo s1 core n fun f => { clear f with bound := some (c.g.id, t) }
        .done (s2.modGroup c.g.id fun g => g.setHandle h)

/-- HBIND that waits in Ephemeris mode: its unit ends the quantum, and it is performed after the release (17 R403, R409). -/
def hbindWait (c : Ctx) (t : Nat) : UnitRes :=
  if c.f.counted then .wait
  else
    let g1 := c.g.modFrag c.f.id fun f => { f with wait := some (.rebind t), counted := true }
    .gone (c.s.setGroup { g1 with logical := g1.logical.map (countUnit (quantumOf c.s c.g) true c.f.pc c.f.id) })

/-- HBIND (R274). -/
def execHbind (px : Option Modw) (d : BitVec 4) (a : BitVec 5) (b : BitVec 6) (s : State) : Host.Outcome State Fault Refusal :=
  runUnit s (fun c => { words := unitWords px, ss := b.toNat :: pairRegs a, regx := decide (c.g.handleN ≤ d.toNat), noMethod := true,
                        region := true }) fun c =>
    if handleBusy c.s c.g d.toNat then (if (c.s.ephGrid c.g).isSome then hbindWait c d.toNat else .wait)
    else hbindBody d.toNat (c.g.getPair (pairOf a)) (c.g.getS b.toNat) c

/-! ### FEED (10 R275) -/

/-- FEED: an unbound handle, or a write-back on a stream, traps TILEHDR; the window itself is judged by the feeder.  The number is given as it
issues; in Ephemeris mode it issues in logical order, in which the releases hand the commands over (17 R397, R407; DEDUCED,
notes/assumptions/85.md). -/
def feedOp (wb : Bool) (px : Option Modw) (d : BitVec 6) (a b : BitVec 4) (cm tr : BitVec 1) (s : State) :
    Host.Outcome State Fault Refusal :=
  runUnit s (fun c => { words := unitWords px, ss := d.toNat :: quadRegs a, regx := decide (c.g.handleN ≤ b.toNat), noMethod := true,
                        region := true, rel := streamMask px }) fun c =>
    match c.g.handle? b.toNat with
    | none => stop8 c causeTilehdr
    | some h =>
      if wb = true ∧ (streamOf h).isSome = true then stop8 c causeTilehdr
      else
        let core := coreNo c
        let n := (h.dest.extractLsb' 28 2).toNat
        match feeder? c.s core n with
        | none => .wait
        | some q =>
          if logicalTurn c.s c.g = false ∨ (c.s.ephGrid c.g).isNone = true ∧ 16 ≤ countCmds q.items then .wait
          else
            let w := fun (k : Nat) => c.g.getS (quadOf a + k)
            let cmd : Feed :=
              { seq := q.nextSeq, group := c.g.id, handle := b.toNat, record := h.record, dest := h.dest, row0 := w 0, col0 := w 1, h := w 2,
                w := w 3, tr := tr == 1, cm := cm == 1, wb := wb, after := c.g.cmds, rights := c.s.rightsOf c.g, team := c.g.team,
                grid := ((c.s.gridOf c.g).map Grid.id).getD 0, str := (mw px).str, quantum := 0 }
            let s1 := modFeeder c.s core n fun q => { q with nextSeq := nextNumber q.nextSeq }
            let s2 := s1.setGroup ((c.g.setHandle { h with lastFeed := q.nextSeq }).setS d.toNat q.nextSeq)
            .done (emit s2 c.g.id (.feed core n cmd))

/-- FEED (R275). -/
def execFeed (px : Option Modw) (d : BitVec 6) (a b : BitVec 4) (cm tr : BitVec 1) (s : State) : Host.Outcome State Fault Refusal :=
  feedOp false px d a b cm tr s

/-- FEED.WB (R275): a write-back. -/
def execFeedWb (px : Option Modw) (d : BitVec 6) (a b : BitVec 4) (cm tr : BitVec 1) (s : State) : Host.Outcome State Fault Refusal :=
  feedOp true px d a b cm tr s

/-! ### CPY and COLL (10 R276, 19 R438) -/

/-- CPY and COLL: the command is read, entered into copy queue s[b], and numbered, in Ephemeris mode in logical order as FEED is. -/
def copyOp (coll : Bool) (px : Option Modw) (d : BitVec 6) (a : BitVec 5) (b : BitVec 6) (s : State) : Host.Outcome State Fault Refusal :=
  runUnit s (fun _ => { words := unitWords px, ss := d.toNat :: b.toNat :: pairRegs a, noMethod := coll, region := true,
                        rel := streamMask px }) fun c =>
    let n := (c.g.getS b.toNat).toNat
    match readRecord c (c.g.getPair (pairOf a)) 64 64 with
    | .error r => r
    | .ok (s, bs) =>
      if 16 ≤ n then stop8 c causeQueue
      else
        match copyQ? s c.g.part n with
        | none => .wait
        | some q =>
          if logicalTurn c.s c.g = false ∨ (c.s.ephGrid c.g).isNone = true ∧ 64 ≤ countCmds q.items then .wait
          else
            let cmd : CopyCmd :=
              { seq := q.nextSeq, bytes := bs, coll := coll, rights := c.s.rightsOf c.g, group := some c.g.id,
                grid := (c.s.gridOf c.g).map Grid.id, str := (mw px).str, quantum := 0 }
            let s1 := modCopyQ s c.g.part n fun q => { q with nextSeq := nextNumber q.nextSeq }
            let s2 := s1.modGroup c.g.id fun g => g.setS d.toNat q.nextSeq
            .done (emit s2 c.g.id (.copy n cmd))

/-- CPY (R276). -/
def execCpy (px : Option Modw) (d : BitVec 6) (a : BitVec 5) (b : BitVec 6) (s : State) : Host.Outcome State Fault Refusal :=
  copyOp false px d a b s

/-- COLL (R438): ILLEGAL in method code. -/
def execColl (px : Option Modw) (d : BitVec 6) (a : BitVec 5) (b : BitVec 6) (s : State) : Host.Outcome State Fault Refusal :=
  copyOp true px d a b s

/-! ### QFENCE and QWAIT (10 R277, R278) -/

/-- QFENCE (R277): a marker in every queue that the mask names; a method has no feeders. -/
def execQfence (a : BitVec 6) (s : State) : Host.Outcome State Fault Refusal :=
  runUnit s (fun _ => { ss := [a.toNat] }) fun c =>
    let m := c.g.getS a.toNat
    if m.extractLsb' 20 12 ≠ 0 then stop8 c causeQueue
    else if m = 0 then .done c.s
    else
      let (n, s1) := c.s.fresh
      match c.s.coreOf c.g with
      | none => .done (emit s1 c.g.id (.marker (m &&& 0xFFFF#32) 0 n))
      | some core => .done (emit s1 c.g.id (.marker m core n))

/-- Whether a sequence number has been issued: compared modulo 2^32 within 2^31 (10 R262). -/
def seqIssued (next done n : Word) : Bool := !(next == 1 && done == 0) && n != next && seqLe n next

/-- The quantum of the release that handed a command over: 0 when that was no release of the group's running phase (17 R405). -/
def queueTime (s : State) (g : Group) (q : Nat) (n : Word) : Nat :=
  let l := if q < 16 then ((copyQ? s g.part q).map CopyQueue.times).getD []
    else (((s.coreOf g).bind fun k => feeder? s k (q - 16)).map Feeder.times).getD []
  ((l.find? fun x => x.1 == n && x.2.2 == gridId s g).map fun x => x.2.1).getD 0

/-- QWAIT (R278): in Ephemeris mode one whose command is complete has been met by the release that handed it over (17 R405). -/
def execQwait (px : Option Modw) (a b : BitVec 6) (s : State) : Host.Outcome State Fault Refusal :=
  runUnit s (fun _ => { words := unitWords px, ss := [a.toNat, b.toNat], noHandler := true, path := true, quantum := true }) fun c =>
    let q := (c.g.getS a.toNat).toNat
    let n := c.g.getS b.toNat
    match queueSeq c.s c.g q with
    | none => stop8 c causeQueue
    | some (next, done) =>
      if n = 0 then .done c.s
      else if seqIssued next done n = false then stop8 c causeQueue
      else if queueComplete c.s c.g q n then doneG c (c.g.wake (queueTime c.s c.g q n) fun f => f.id == c.f.id)
      else doneG c (c.g.modFrag c.f.id fun f => { f with wait := some (.queue q n) })

end Sys2Proof.Machine
end

