-- ==== Sys2Proof/Machine/Plane.lean ====
section
/-!
DEFINITION. The training instructions PADDC and LSUPD (18 R412 to R419).
-/

namespace Sys2Proof.Machine

/-! ### PADDC (18 R412 to R417) -/

/-- The operands of a PADDC: addresses, stride, pitch, tile, NORM and step factor (18 R412). -/
structure PaddcArgs where
  a     : Dword
  s     : Dword
  p     : Dword
  scale : Dword
  tile  : Nat
  norm  : Bool
  low   : BitVec 6
  step  : Num

/-- The operands as the two quads hold them. -/
def paddcArgs (c : Ctx) (a b : BitVec 4) : PaddcArgs :=
  let w := c.g.getS (quadOf b + 2)
  { a := c.g.getPair (quadOf a), s := (c.g.getS (quadOf a + 2)).setWidth 64, p := (c.g.getS (quadOf a + 3)).setWidth 64,
    scale := c.g.getPair (quadOf b), tile := 128 * (w.extractLsb' 7 25).toNat, norm := w.getLsbD 0, low := w.extractLsb' 1 6,
    step := numOfF32 (c.g.getS (quadOf b + 3)) }

/-- The address of the 16 bytes of row r in plane j. -/
def PaddcArgs.word (x : PaddcArgs) (j r : Nat) : Dword := x.a + BitVec.ofNat 64 j * x.s + BitVec.ofNat 64 r * x.p

/-- The 256 plane words, plane by plane. -/
def PaddcArgs.words (x : PaddcArgs) : List Dword := (List.range 8).flatMap fun j => lanes.map fun r => x.word j r

/-- Whether an address breaks protection for a PADDC: a window or non-canonical address, a page without read and write right, or, outside
Ephemeris mode, a page of tier 3 (18 R413, R417, R424).  `n` is its place among the 257 words, as for the translation that is used. -/
def paddcOffends (c : Ctx) (n : Nat) (x : Dword) : Bool :=
  x.extractLsb' 57 7 != 0 ||
  (match translate c.s (c.s.rightsOf c.g) (sliceTeam c.g) .update x n with
   | .access => true
   | .loc _ t _ => (c.s.ephGrid c.g).isNone && t == 3
   | .absent _ => false)

/-- The checks of PADDC, in the order of R413: the locations of the 256 plane words and of the scale byte. -/
def paddcCheck (c : Ctx) (x : PaddcArgs) : Checked :=
  if x.low ≠ 0 then .bad (stop8 c causeIllegal)
  else if x.step.isFinite = false then .bad (stop8 c causeArith)
  else if x.a.toNat % 16 ≠ 0 ∨ x.s = 0 ∨ x.s.toNat % 64 ≠ 0 ∨ x.p.toNat % 16 ≠ 0 then .bad (.trap causeMisalign c.f.mask x.a)
  else if sliceSize c < x.tile + 4096 then .bad (.trap causeAccess c.f.mask (sliceVa x.tile))
  else match ((x.words ++ [x.scale]).mapIdx fun n y => (n, y)).find? fun y => paddcOffends c y.1 y.2 with
    | some y => .bad (.trap causeAccess c.f.mask y.2)
    | none => forLanes c.f.mask (checkLanes c .update ((x.words.map fun y => (0, y, 16)) ++ [(0, x.scale, 1)]))

/-- Whether every element at 2^k of its mantissa fits i32 (18 R413). -/
def paddcFits (xs : List Num) (k : Int) : Bool :=
  xs.all fun x => match (x.scale k).toInt 0 with | some v => decide (saturate true 32 v = v) | none => false

/-- The shift right: the least s from `s` on that fits, up to scale 254. -/
def paddcDown (xs : List Num) (e : Nat) : Nat → Nat → Nat
  | 0, s => s
  | fuel + 1, s => if !(paddcFits xs (-(s : Int))) && decide (e + s < 254) then paddcDown xs e fuel (s + 1) else s

/-- The shift left under NORM: the greatest t that fits, down to scale 0. -/
def paddcUp (xs : List Num) (e : Nat) : Nat → Nat → Nat
  | 0, t => t
  | fuel + 1, t => if decide (t < e) && paddcFits xs ((t : Int) + 1) then paddcUp xs e fuel (t + 1) else t

/-- The new mantissas, the new scale and the flags of a block (18 R413, R414). -/
def paddcBlock (e : Nat) (ms : List Int) (us : List Num) (step : Num) (norm : Bool) : List Nat × Nat × Word :=
  if e = 255 ∨ us.any (fun u => !u.isFinite) = true then (ms.map fun _ => 0, 255, 8)
  else
    let xs := (ms.zip us).map fun mu => Num.add false (Num.ofInt mu.1) ((Num.mul step mu.2).scale (158 - (e : Int)))
    let s := paddcDown xs e 255 0
    let t := if s = 0 ∧ norm = true then paddcUp xs e 255 0 else 0
    let vs := xs.map fun x => ((x.scale ((t : Int) - s)).toInt 0).getD 0
    let sat := vs.any fun v => decide (saturate true 32 v ≠ v)
    (vs.map fun v => wrapNat 32 (saturate true 32 v), e + s - t,
      (if 0 < s then 1 else 0) ||| (if 0 < t then 2 else 0) ||| (if sat then 4 else 0))

/-- The 16 bytes of row r in plane j of a block of mantissas. -/
def planeRow (ms : List Nat) (j r : Nat) : List Byte :=
  (List.range 16).map fun k =>
    let nib := fun (col : Nat) => ms.getD (32 * r + col) 0 / pow2 (28 - 4 * j) % 16
    BitVec.ofNat 8 (nib (2 * k) + 16 * nib (2 * k + 1))

/-- Whether a PADDC waits for an earlier one to commit: of its group, always; of its core, when both update a tier-1 block, which is atomic
with respect to what passes through the same core (18 R415, 19 R436). -/
def paddcWaits (c : Ctx) (ls : List Loc) : Bool :=
  let far := ls.any fun l => match l with | .mem k => keyTier k == 1 | .slice .. => false
  let same := fun (o : Out) => o.commit.any fun p => ls.any fun l => overlaps p.loc p.bytes.length l 16
  c.s.groups.any fun g => (g.frags.flatMap Frag.outs ++ g.strays).any fun o => !o.commit.isEmpty &&
    (g.id == c.g.id || (far && same o && c.s.coreOf g == c.s.coreOf c.g))

/-- PADDC (R413): the block is read now, and the commit, one unit, is made before its status lands, an outstanding result that is kept across
stops (R414, R416, R387); in Ephemeris mode the commit is held with the group's other effects (R417). -/
def execPaddc (px : Option Modw) (d : BitVec 6) (a b l : BitVec 4) (s : State) : Host.Outcome State Fault Refusal :=
  runUnit s (fun _ => { words := unitWords px, ss := d.toNat :: quadRegs a ++ quadRegs b, noMethod := true, region := true,
                        rel := streamMask px }) fun c =>
    let x := paddcArgs c a b
    match paddcCheck c x with
    | .bad r => r
    | .ok s ls =>
      let (oid, s1) := s.fresh
      let o : Out := { newOut oid .kept [.s d.toNat] l.toNat c.f.pc with str := (mw px).str }
      let tile := (List.range 256).map fun k => (0, sliceVa (x.tile + 16 * k), Loc.slice c.g.team (x.tile + 16 * k))
      if paddcWaits c (ls.map fun y => y.2.2) then .wait
      else match (ls ++ tile).find? fun y => (viewOf c.s c.g).broken s c.g.part y.2.2 16 with
      | some y =>
        let t : TrapInfo := { cause := causeMemerr, mask := c.f.mask, addr := y.2.1, pc := c.f.pc, resume := 0, noEffect := false }
        .done (addOut c (logLanes c s1 [y]) { o with trap := some t })
      | none =>
        let v := viewOf s c.g
        let rows := ls.map fun y => readLocs s v y.2.2 16
        let e := match ls.getLast? with | none => 0 | some y => (readLoc s v y.2.2).toNat
        let nib := fun (j k : Nat) => nibbleOf (rows.getD (32 * j + k / 32) []) (k % 32)
        let ms := (List.range 1024).map fun k =>
          toSigned 32 ((List.range 8).foldl (fun acc j => 16 * acc + nib j k) 0)
        let us := (List.range 1024).map fun k =>
          fmtF32.decode (natOfBytes (readLocs s v (.slice c.g.team (x.tile + 4 * k)) 4))
        let (ms', e', flags) := paddcBlock e ms us x.step x.norm
        let ps : List Piece := ls.mapIdx fun n y =>
          { loc := y.2.2, addr := y.2.1, mask := [], plane := true,
            bytes := if n < 256 then planeRow ms' (n / 32) (n % 32) else [BitVec.ofNat 8 e'] }
        if overflowsCommit c.g ps then .cut
        else
          let w : RegWrite := { reg := .s d.toNat, lane := 0, val := c.g.getS d.toNat ||| flags }
          if (s.ephGrid c.g).isSome then .done (emit (addOut c s1 { o with writes := [w] }) c.g.id (.store ps (mw px).str c.f.pc c.f.mask))
          else .done (addOut c s1 { o with writes := [w], commit := ps })

/-! ### LSUPD (18 R419) -/

/-- The new state word and its exponent, for a state and an overflow indicator; none for a state that traps ARITH. -/
def lsNext (st ind : Word) : Option (Word × Nat) :=
  let k := (st.extractLsb' 0 5).toNat
  let n := (st.extractLsb' 8 11).toNat
  if st.extractLsb' 19 13 ≠ 0 ∨ st.getLsbD 7 = true ∨ 24 < k ∨ 1999 < n then none
  else
    let floor := if st.getLsbD 6 then 1 else 0
    let word := fun (n floor skip k : Nat) => BitVec.ofNat 32 (n * 256 + floor * 64 + skip * 32 + k)
    if ind ≠ 0 then
      if 0 < k then some (word 0 floor 1 (k - 1), k - 1) else some (word 0 1 1 0, 0)
    else if n + 1 = 2000 then
      let k' := if k < 24 then k + 1 else k
      some (word 0 floor 0 k', k')
    else some (word (n + 1) floor 0 k, k)

/-- LSUPD (R419). -/
def execLsupd (d : BitVec 5) (a : BitVec 6) (s : State) : Host.Outcome State Fault Refusal :=
  runUnit s (fun _ => { ss := a.toNat :: pairRegs d, noMethod := true, region := true }) fun c =>
    match lsNext (c.g.getS (pairOf d)) (c.g.getS a.toNat) with
    | none => stop8 c causeArith
    | some (w, k) => doneG c ((c.g.setS (pairOf d) w).setS (pairOf d + 1) (BitVec.ofNat 32 ((k + 127) * pow2 23)))

end Sys2Proof.Machine
end

