-- ==== Sys2Proof/Machine/Snapshot.lean ====
section
/-!
DEFINITION. SNAP and RDVER, and the snapshot events: trigger, SNAPIN, latch and release (20 R449 to R454).
-/

namespace Sys2Proof.Machine

/-! ### RDVER (20 R449, R450) -/

/-- The version of an interface record by its index (20 R449). -/
def versionOf (n : Nat) : Word :=
  match n with
  | 0 => 0x0100
  | 11 => 0x0100
  | 13 => 0x71440001
  | _ => 1

/-- RDVER (R450). -/
def execRdver (d : BitVec 6) (b : BitVec 4) (s : State) : Host.Outcome State Fault Refusal :=
  runUnit s (fun _ => { ss := [d.toNat] }) fun c => doneG c (c.g.setS d.toNat (versionOf b.toNat))

/-! ### Triggers (20 R452, R453) -/

/-- The number of the device function; 0 to 7 are the functions of the partitions. -/
def deviceFn : Nat := 8

/-- Changes the snapshot window of a function. -/
def modSnap (s : State) (fn : Nat) (f : SnapWindow → SnapWindow) : State :=
  if fn = deviceFn then { s with dev := { s.dev with snap := f s.dev.snap } } else s.modPart fn fun p => { p with snap := f p.snap }

/-- Whether a function's snapshot stands in the way of a trigger: it holds its units, and its own trigger has not come in the same cycle
(20 R453). -/
def SnapWindow.blocks (w : SnapWindow) (now : Nat) : Bool := w.held && !(w.pending && w.since == now)

/-- The functions that hold a unit which a trigger of a function covers: a device trigger covers every unit (20 R452). -/
def snapHolders (s : State) (fn : Nat) : List Nat :=
  let dev := if s.dev.snap.blocks s.clock then [deviceFn] else []
  let parts := (s.parts.filter fun p => p.snap.blocks s.clock && (fn == deviceFn || p.id == fn)).map Part.id
  dev ++ parts

/-- One more missed trigger, saturating. -/
def SnapWindow.miss (w : SnapWindow) : SnapWindow :=
  { w with missed := if w.missed = 0xFFFFFFFF#32 then w.missed else w.missed + 1 }

/-- A trigger is accepted and holds its units, or counts as missed in each function concerned; triggers of one cycle are accepted together
(20 R453). -/
def snapTrigger (s : State) (fn : Nat) : State :=
  match snapHolders s fn with
  | [] => modSnap s fn fun w => { w with held := true, pending := true, since := s.clock }
  | hs => (fn :: hs).eraseDups.foldl (fun s f => modSnap s f SnapWindow.miss) s

/-- SNAP (R451): PRIV for a group that is not a system group while snap allow is 0. -/
def execSnap (s : State) : Host.Outcome State Fault Refusal :=
  runUnit s (fun c =>
    let allow := match c.s.part? c.g.part with | none => false | some p => p.snapAllow
    { priv := !(c.s.isSysGroup c.g) && !allow }) fun c => .done (snapTrigger c.s c.g.part)

/-- A write to the trigger register of a function (R452), which answers once the device is ready (R443). -/
def execSnapshotTrigger (fn : Nat) (s : State) : Host.Outcome State Fault Refusal :=
  .next (if ready s && (fn == deviceFn || (s.part? fn).isSome) then snapTrigger s fn else s)

/-- The SNAPIN pin (R452): a device trigger, of a device that is ready (DESIGN CHOICE, notes/assumptions/54.md). -/
def execSnapin (s : State) : Host.Outcome State Fault Refusal := .next (if ready s then snapTrigger s deviceFn else s)

/-! ### Latch and release (20 R452 to R454) -/

/-- Registers of each unit kind (20 R454). -/
def snapRegs (kind : Nat) : Nat :=
  match kind with | 1 => 4 | 2 => 13 | 3 => 5 | 4 => 3 | 5 => 3 | 6 => 4 | 7 => 5 | _ => 0

/-- Registers that count what the model does not hold: cycles (the quadrants' idle ones, a port's paused ones), the traffic and errors of die
caches and stacks.  They are free values (DESIGN CHOICE, notes/assumptions/54.md). -/
def snapOpen (kind reg : Nat) : Bool :=
  match kind with
  | 2 => 4 ≤ reg && reg ≤ 7
  | 5 => true
  | 6 => true
  | 7 => reg == 3
  | _ => false

/-- The status word of a port (19 R428). -/
def portStatus (p : Port) : Dword :=
  BitVec.ofNat 64 (p.downs.toNat * pow2 48 + (p.owner.getD 255) * pow2 40 + (if p.up then pow2 32 else 0) +
    (if p.up then p.peer.toNat * pow2 16 + p.version.toNat else 0))

/-- The groups resident on a core. -/
def residentGroups (s : State) (core : Nat) : Nat := (s.groups.filter fun g => !g.exited && s.coreOf g == some core).length

/-- The value that a snapshot register latches. -/
def snapValue (s : State) (kind unit reg : Nat) : Dword :=
  if kind = 2 ∧ reg = 8 then BitVec.ofNat 64 (residentGroups s unit)
  else if kind = 3 ∧ reg = 4 then BitVec.ofNat 64 (4096 - homeRoom s unit)
  else if kind = 7 ∧ reg = 4 then ((s.dev.ports.find? fun p => p.num == unit).map portStatus).getD 0
  else if snapOpen kind reg then Config.snapCount kind unit reg s.tick
  else ((s.dev.live.find? fun x => x.1 == (kind, unit, reg)).map Prod.snd).getD 0

/-- The units of each kind that a function covers (20 R452, R454). -/
def snapUnits (s : State) (fn : Nat) : List (Nat × Nat) :=
  let of_ := fun (k : Nat) (l : List Nat) => l.map fun u => (k, u)
  if fn = deviceFn then
    of_ 1 (List.range 36) ++ of_ 2 (List.range 144) ++ of_ 3 (List.range 36) ++ of_ 4 (List.range 64) ++ of_ 5 (List.range 4) ++
      of_ 6 (List.range 16) ++ of_ 7 (List.range 64)
  else match s.part? fn with
    | none => []
    | some p =>
      of_ 1 p.clusters ++ of_ 2 (p.clusters.flatMap fun c => [4 * c, 4 * c + 1, 4 * c + 2, 4 * c + 3]) ++ of_ 3 p.clusters ++
        of_ 4 p.engines ++ of_ 6 p.quarters ++ of_ 7 p.ports

/-- The registers of the units that a function covers, as they latch. -/
def snapLatch (s : State) (fn : Nat) : State :=
  let keys := (snapUnits s fn).flatMap fun u => (List.range (snapRegs u.1)).map fun r => (u.1, u.2, r)
  let new := keys.map fun k => (k, snapValue s k.1 k.2.1 k.2.2)
  let old := s.dev.latched.filter fun x => !(keys.contains x.1)
  modSnap { s with dev := { s.dev with latched := old ++ new } } fn fun w => { w with pending := false, sequence := w.sequence + 1 }

/-- The functions whose latches are pending, each with the cycle of its trigger. -/
def pendingLatches (s : State) : List (Nat × Nat) :=
  (if s.dev.snap.pending then [(deviceFn, s.dev.snap.since)] else []) ++ (s.parts.filter fun p => p.snap.pending).map fun p => (p.id, p.snap.since)

/-- The latch of the accepted trigger that came first, with those of its cycle, 64 cycles after it (R452, R453). -/
def execSnapshotLatch (s : State) : Host.Outcome State Fault Refusal :=
  .next (match pendingLatches s with
    | [] => s
    | x :: rest =>
      let first := rest.foldl (fun m y => Nat.min m y.2) x.2
      (((x :: rest).filter fun y => y.2 == first).map Prod.fst).foldl snapLatch s)

/-- A write to the release register of a function (R453): it frees the units of a snapshot that has latched; a pending latch stays. -/
def execSnapshotRelease (fn : Nat) (s : State) : Host.Outcome State Fault Refusal :=
  .next (if ready s then modSnap s fn fun w => if w.pending then w else { w with held := false } else s)

/-! ### The snapshot window as it reads (20 R454) -/

/-- The snapshot window of a function. -/
def snapWindow (s : State) (fn : Nat) : SnapWindow := if fn = deviceFn then s.dev.snap else ((s.part? fn).map Part.snap).getD {}

/-- The numbers of the units of a kind that a function covers. -/
def kindUnits (s : State) (fn kind : Nat) : List Nat := ((snapUnits s fn).filter fun u => u.1 == kind).map Prod.snd

/-- The first eight bytes of a kind's directory entry: kind, registers per unit, units covered, highest unit number. -/
def dirEntry (s : State) (fn kind : Nat) : Dword :=
  let us := kindUnits s fn kind
  BitVec.ofNat 64 (kind + 256 * snapRegs kind + pow2 16 * us.length + pow2 32 * us.foldl Nat.max 0)

/-- Register j of the unit that the selector names, as latched; zero for a unit that the function does not cover, or past its kind's list. -/
def selectedReg (s : State) (fn j : Nat) : Dword :=
  let sel := (snapWindow s fn).selector
  let kind := (sel.extractLsb' 24 8).toNat
  let unit := (sel.extractLsb' 0 16).toNat
  if j < snapRegs kind ∧ (kindUnits s fn kind).contains unit = true then
    ((s.dev.latched.find? fun x => x.1 == (kind, unit, j)).map Prod.snd).getD 0
  else 0

/-- What a field of a function's snapshot window reads, by its offset; the directory is read eight bytes at a time. -/
def snapRead (s : State) (fn off : Nat) : Dword :=
  let w := snapWindow s fn
  match off with
  | 0x800C => w.missed.setWidth 64
  | 0x8010 => w.sequence.setWidth 64
  | 0x8014 => (if w.held then 1 else 0) ||| (if w.pending then 2 else 0)
  | 0x8020 => w.selector.setWidth 64
  | 0x8100 => 0x70001
  | _ =>
    if 0x8110 ≤ off ∧ off < 0x8180 ∧ off % 16 = 0 then dirEntry s fn ((off - 0x8100) / 16)
    else if 0x8400 ≤ off ∧ off < 0x8800 ∧ off % 8 = 0 then selectedReg s fn ((off - 0x8400) / 8)
    else 0

end Sys2Proof.Machine
end

