-- ==== Sys2Proof/Machine/Relation.lean ====
section
/-!
DEFINITION. Label relations: fields, the admission of a pair, summaries and the decision for a tile (15 R362 to R368).
-/

namespace Sys2Proof.Machine

/-! ### Fields and the admission of a pair (15 R362, R364) -/

/-- Field k of a label under the cuts of a relation word (15 R362). -/
def labelField (w : BitVec 128) (k : Nat) (l : Word) : Nat :=
  let (a, b, c) := relCuts w
  let cut := fun (lo hi : Nat) => l.toNat / pow2 lo % pow2 (hi - lo)
  match k with
  | 0 => cut 0 a
  | 1 => cut a b
  | 2 => cut b c
  | _ => cut c 32

/-- The outcome of a term for a row field x and a column field y (15 R364). -/
def termHolds (t : RelTerm) (x y : Nat) : Bool :=
  let d : Int := (x : Int) - y
  match t.op with
  | 0 => true
  | 1 => x == y
  | 2 => x != y
  | 3 => decide (y ≤ x)
  | 4 => decide (y < x)
  | 5 => decide (x ≤ y)
  | 6 => decide (x < y)
  | 7 => decide (0 ≤ d) && decide (d ≤ t.k)
  | 8 => decide (-t.k ≤ d) && decide (d ≤ t.k)
  | 9 => (x : Int) == t.k
  | 10 => (y : Int) == t.k
  | 11 => decide (y < 32) && (x >>> y) % 2 == 1
  | _ => x &&& y != 0

/-- Bit j of the truth table (15 R363). -/
def truthBit (w : BitVec 128) (j : Nat) : Bool := w.getLsbD (93 + j)

/-- Whether a pair of labels is admitted (15 R364). -/
def admits (w : BitVec 128) (row col : Word) : Bool :=
  let o := fun (t : Nat) =>
    let x := relTerm w t
    if termHolds x (labelField w x.rf row) (labelField w x.cf col) then pow2 t else 0
  truthBit w (o 0 + o 1 + o 2 + o 3)

/-! ### Summaries and the decision per tile (15 R367, R368) -/

/-- The summaries of a field over some labels: minimum, maximum, AND and OR. -/
structure Summary where
  lo  : Nat
  hi  : Nat
  all : Nat
  any : Nat
  deriving DecidableEq, Repr

/-- The summaries of field k of a list of labels. -/
def summaryOf (w : BitVec 128) (k : Nat) (ls : List Word) : Summary :=
  match ls.map (labelField w k) with
  | [] => { lo := 0, hi := 0, all := 0, any := 0 }
  | x :: xs => xs.foldl (fun s y => { lo := min s.lo y, hi := max s.hi y, all := s.all &&& y, any := s.any ||| y })
      { lo := x, hi := x, all := x, any := x }

/-- Whether some bit of `x` is clear in `y`. -/
def bitsOutside (x y : Nat) : Bool := x &&& y != x

/-- ROWK and COLK over a summary. -/
def triK (k : Int) (s : Summary) : Option Bool :=
  if k < 0 then some false
  else
    let n := k.toNat
    if s.lo = n ∧ s.hi = n then some true
    else if n < s.lo ∨ s.hi < n ∨ bitsOutside s.all n = true ∨ bitsOutside n s.any = true then some false
    else none

/-- EQ over two summaries. -/
def triEq (r c : Summary) : Option Bool :=
  if r.lo = r.hi ∧ r.hi = c.lo ∧ c.lo = c.hi then some true
  else if r.hi < c.lo ∨ c.hi < r.lo ∨ bitsOutside r.all c.any = true ∨ bitsOutside c.all r.any = true then some false
  else none

/-- A condition that makes a term 1 over a tile, and one that makes it 0. -/
def tri (one zero : Bool) : Option Bool := if one then some true else if zero then some false else none

/-- The three-valued outcome of a term over a tile (15 R367). -/
def termTri (t : RelTerm) (r c : Summary) : Option Bool :=
  let dlo : Int := (r.lo : Int) - c.hi
  let dhi : Int := (r.hi : Int) - c.lo
  match t.op with
  | 0 => some true
  | 1 => triEq r c
  | 2 => (triEq r c).map fun b => !b
  | 3 => tri (decide (c.hi ≤ r.lo)) (decide (r.hi < c.lo))
  | 4 => tri (decide (c.hi < r.lo)) (decide (r.hi ≤ c.lo))
  | 5 => tri (decide (r.hi ≤ c.lo)) (decide (c.hi < r.lo))
  | 6 => tri (decide (r.hi < c.lo)) (decide (c.hi ≤ r.lo))
  | 7 => tri (decide (0 ≤ dlo) && decide (dhi ≤ t.k)) (decide (t.k < 0) || decide (dhi < 0) || decide (t.k < dlo))
  | 8 => tri (decide (-t.k ≤ dlo) && decide (dhi ≤ t.k)) (decide (t.k < 0) || decide (t.k < dlo) || decide (dhi < -t.k))
  | 9 => triK t.k r
  | 10 => triK t.k c
  | 11 =>
    let span := fun (hi : Nat) => (List.range 32).filter fun i => decide (c.lo ≤ i) && decide (i ≤ hi)
    tri (decide (c.hi ≤ 31) && (span c.hi).all fun i => r.all.testBit i)
      (decide (31 < c.lo) || (span (min c.hi 31)).all fun i => !(r.any.testBit i))
  | _ => tri (r.all &&& c.all != 0) (r.any &&& c.any == 0)

/-- What is decided for an output tile (15 R368). -/
inductive TileDecision where
  | skipped | full | checked
  deriving DecidableEq, Repr

/-- The outcome indices that some completion of the unknown terms gives. -/
def completions (o : List (Option Bool)) : List Nat :=
  (List.range 16).filter fun j => [0, 1, 2, 3].all fun t =>
    match o.getD t none with | none => true | some b => (j / pow2 t % 2 == 1) == b

/-- The decision for a tile of row labels and column labels (15 R367, R368). -/
def decideTile (w : BitVec 128) (rows cols : List Word) : TileDecision :=
  let o := [0, 1, 2, 3].map fun t =>
    let x := relTerm w t
    termTri x (summaryOf w x.rf rows) (summaryOf w x.cf cols)
  let vs := (completions o).map (truthBit w)
  if vs.all fun b => b then .full else if (vs.all fun b => !b) && w.getLsbD 88 then .skipped else .checked

end Sys2Proof.Machine
end

