-- ==== Sys2Proof/Machine/MatrixEngine.lean ====
section
/-!
DEFINITION. What the matrix engine does: the streams it consumes, MMA, MMAS, MMAP, MTR and the MACC forms, and its events
(14 R344 to R360, 15 R366 to R375).
-/

namespace Sys2Proof.Machine

/-! ### The engines run (16 R389) -/

/-- Whether the engines and homes of a partition work: not once the swap tier has begun (16 R389). -/
def partWorks (s : State) (part : Nat) : Bool :=
  (s.part? part).any fun p => p.running && (p.tier == .run || p.tier == .drain)

/-- The partition of a core. -/
def partOfCore (s : State) (core : Nat) : Nat := ((s.parts.find? fun p => p.clusters.contains (core / 4)).map Part.id).getD 0

/-! ### Accumulators (03 R68, 14 R344) -/

/-- The code of output element (r, c): 32 bits, or 64 for type f64. -/
def accGet (g : Group) (w : Word) (base r c : Nat) : Nat :=
  let t := (r / 32) * (cwN w / 32) + c / 32
  if cwType w = 1 then
    let k := 1024 * (base + 2 * t) + 64 * (r % 32) + 2 * (c % 32)
    (sget 0 g.acc k).toNat + pow2 32 * (sget 0 g.acc (k + 1)).toNat
  else (g.getAcc (base + t) (r % 32) (c % 32)).toNat

/-- Writes the code of output element (r, c). -/
def accPut (g : Group) (w : Word) (base r c x : Nat) : Group :=
  let t := (r / 32) * (cwN w / 32) + c / 32
  if cwType w = 1 then
    let k := 1024 * (base + 2 * t) + 64 * (r % 32) + 2 * (c % 32)
    { g with acc := sset 0 (sset 0 g.acc k (BitVec.ofNat 32 x)) (k + 1) (BitVec.ofNat 32 (x / pow2 32)) }
  else g.setAcc (base + t) (r % 32) (c % 32) (BitVec.ofNat 32 x)

/-- Writes the words of an output that a function gives; where it gives none the word stays. -/
def accFill (g : Group) (w : Word) (base : Nat) (f : Nat → Nat → Option Nat) : Group :=
  (List.range (cwM w)).foldl (fun g r => (List.range (cwN w)).foldl (fun g c =>
    match f r c with | none => g | some x => accPut g w base r c x) g) g

/-! ### The statistics tile (14 R345) -/

/-- Field f of row r of a statistics tile: 0 max, 1 sum, 2 corr, 3 flags. -/
def statGet (g : Group) (t r f : Nat) : Word := g.getAcc t (r % 32) (4 * (r / 32) + f)
def statPut (g : Group) (t r f : Nat) (x : Word) : Group := g.setAcc t (r % 32) (4 * (r / 32) + f) x

/-- The skip count. -/
def skipGet (g : Group) (t : Nat) : Word := g.getAcc t 0 16

/-- Writes the skip count, and zero to every word that is no field. -/
def skipPut (g : Group) (t : Nat) (x : Word) : Group :=
  let rest := (List.range 1024).filter fun k => decide (16 ≤ k % 32)
  { g with acc := sset 0 (rest.foldl (fun a k => sset 0 a (1024 * t + k) 0) g.acc) (1024 * t + 16) x }

/-- The rows below M as a sweep starts (14 R345). -/
def statReset (g : Group) (t m : Nat) : Group :=
  skipPut ((List.range m).foldl (fun g r =>
    statPut (statPut (statPut (statPut g t r 0 0xFF800000#32) t r 1 0) t r 2 0x3F800000#32) t r 3 0) g) t 0

/-! ### The operands of a command (14 R347, 15 R366) -/

/-- The descriptor of a command's format slot, and its element format. -/
def cmdSlot (s : State) (c : MatCmd) : Word := match s.group? c.group with | none => 0 | some g => slotWord s g c.slot.toNat
def cmdElem (s : State) (c : MatCmd) : Elem := (slotElem (cmdSlot s c)).getD (.float fmtF32)

/-- The value of a stream element as a command reads it: flushed where its slot says so, scaled, and negated (04 R97, R107).  The zero of a
format without a negative zero is negated to −0 too (DESIGN CHOICE, notes/assumptions/83.md).  A plane element comes as its record's own read mode
gives it; the mode bit of the slot has no further effect here (DESIGN CHOICE, notes/assumptions/106.md). -/
def elemNum (sw : Word) (f : Elem) (negate : Bool) (e : StreamElem) : Num :=
  let v := Num.mul (f.value (slotFlush sw f e.code)) e.scale
  if negate then v.neg else v

/-- The values of a stream tile; a tile that was dropped has none. -/
def tileNums (sw : Word) (f : Elem) (negate : Bool) (t : StreamTile) : Array Num :=
  ((t.data.getD []).map (elemNum sw f negate)).toArray

/-- The row labels of row-tile i, and the column labels of column-tile j (15 R366). -/
def rowLabels (c : MatCmd) (as : List StreamTile) (i : Nat) : List Word := ((as[i * cwKT c.word]?).bind StreamTile.labels).getD []
def colLabels (bs : List StreamTile) (j : Nat) : List Word := ((bs[j]?).bind StreamTile.labels).getD []

/-- What a command decides for output tile (i, j), from the labels of its first tiles (15 R366, R368). -/
def decideOf (c : MatCmd) (as bs : List StreamTile) (i j : Nat) : TileDecision :=
  match c.rel with | none => .full | some w => decideTile w (rowLabels c as i) (colLabels bs j)

/-- The decisions of a command's output tiles. -/
def decisions (c : MatCmd) (as bs : List StreamTile) : List (List TileDecision) :=
  (List.range (cwM c.word / 32)).map fun i => (List.range (cwN c.word / 32)).map fun j => decideOf c as bs i j

/-- Output tiles skipped. -/
def skippedTiles (ds : List (List TileDecision)) : Nat := (ds.flatten.filter fun d => d == .skipped).length

/-- Whether element (r, c) is admitted (15 R364, R368). -/
def admitted (c : MatCmd) (ds : List (List TileDecision)) (as bs : List StreamTile) (r k : Nat) : Bool :=
  match (ds.getD (r / 32) []).getD (k / 32) .full, c.rel with
  | .skipped, _ => false
  | .full, _ => true
  | .checked, none => true
  | .checked, some w => admits w ((rowLabels c as (r / 32)).getD (r % 32) 0) ((colLabels bs (k / 32)).getD (k % 32) 0)

/-! ### Sums (04 R113 to R115, 14 R355) -/

/-- One chunk added to an accumulator element of a type (04 R114, R115). -/
def addChunk (type : Nat) (acc : Nat) (s : Num) : Nat :=
  match type with
  | 1 => fmtF64.encode 0 false (Num.add false (fmtF64.decode acc) s)
  | 2 => wrapNat 32 ((acc : Int) + (s.toInt 0).getD 0)
  | _ => fmtF32.encode 0 false (Num.add false (fmtF32.decode acc) s)

/-- The exact sum of the products of a chunk: `a` and `b` give the operands by K index. -/
def chunkSum (a b : Nat → Num) (k0 n : Nat) : Num := exactSum ((List.range n).map fun d => Num.mul (a (k0 + d)) (b (k0 + d)))

/-- The accumulation of K / chunk chunks in increasing K (14 R355). -/
def accumulate (type chunk kTotal : Nat) (a b : Nat → Num) (acc : Nat) : Nat :=
  (List.range (kTotal / chunk)).foldl (fun acc q => addChunk type acc (chunkSum a b (chunk * q) chunk)) acc

/-- Operand a(r, k) of the tiles of A, and b(k, c) of the tiles of B (14 R347). -/
def opA (w : Word) (as : Array (Array Num)) (r k : Nat) : Num :=
  ((as[(r / 32) * cwKT w + k / 32]?).bind fun t => t[32 * (r % 32) + k % 32]?).getD (Num.zero false)
def opB (w : Word) (bs : Array (Array Num)) (k c : Nat) : Num :=
  ((bs[(k / 32) * (cwN w / 32) + c / 32]?).bind fun t => t[32 * (k % 32) + c % 32]?).getD (Num.zero false)

/-! ### MMA (14 R355, 15 R369) -/

/-- What a rejected element takes with nacc = 1: the reject value, or in an empty row the empty-row value; none to keep (15 R369). -/
def rejectCode (w : BitVec 128) (type : Nat) (empty : Bool) : Option Nat :=
  let inf := if type = 1 then 0xFFF0000000000000 else if type = 2 then 0x80000000 else 0xFF800000
  let nan := if type = 1 then 0x7FF8000000000000 else if type = 2 then 0 else 0x7FC00000
  if empty then
    match (w.extractLsb' 91 2).toNat with | 0 => some 0 | 1 => some nan | _ => none
  else
    match (w.extractLsb' 89 2).toNat with | 0 => some inf | 1 => some 0 | _ => none

/-- The effect of an MMA on its group: A from the tiles of member 0, B from its own (14 R351, R355, 15 R369). -/
def mmaApply (s : State) (c : MatCmd) (as bs : List StreamTile) (g : Group) : Group :=
  let w := c.word
  let sw := cmdSlot s c
  let f := cmdElem s c
  let ch := chunkOf f (slotScale sw)
  let av := (as.map (tileNums sw f c.px.nega)).toArray
  let bv := (bs.map (tileNums sw f c.px.negb)).toArray
  let ds := decisions c as bs
  let adm := admitted c ds as bs
  let empty := ((List.range (cwM w)).map fun r => !((List.range (cwN w)).any (adm r))).toArray
  let base := cwBase w
  let g1 := accFill g w base fun r k =>
    if adm r k then
      some (accumulate (cwType w) ch.1 (cwK w) (opA w av r) (fun x => opB w bv x k) (if c.px.nacc then 0 else accGet g w base r k))
    else if c.px.nacc then c.rel.bind fun x => rejectCode x (cwType w) (empty.getD r false)
    else none
  match c.rel with
  | none => g1
  | some _ =>
    let t := base + cwTiles w
    let g2 := if c.px.nacc then statReset g1 t (cwM w) else g1
    let g3 := (List.range (cwM w)).foldl (fun g r => statPut g t r 3 (if empty.getD r false then 1 else 0)) g2
    skipPut g3 t (skipGet g3 t + BitVec.ofNat 32 (skippedTiles ds))

/-! ### MMAS (15 R373, R374) -/

/-- 2^x as f32 for an f32 x, one rounding; 2^(-inf) is +0. -/
def pow2F32 (x : Num) : Num :=
  match x with
  | .nan => .nan
  | .inf n => if n then Num.zero false else .inf false
  | .fin n m e => rneF32 (exp2Num n m e)

/-- 2^x rounded to p6 (04 R105, 15 R373). -/
def pow2P6 (x : Num) : Num :=
  p6Value (match x with
    | .nan => p6Code .nan
    | .inf n => if n then p6Code (Num.zero false) else p6Code (.inf false)
    | .fin n m e => p6Code (exp2Num n m e))

/-- A row of MMAS: the admitted columns with their x, and the statistics max and sum; gives max, sum, corr, empty and the
probabilities (15 R373, R374). -/
def mmasRow (xs : List (Nat × Word)) (mx sum : Word) : Word × Word × Word × Word × List (Nat × Num) :=
  let nan := 0x7FC00000#32
  let one := 0x3F800000#32
  let isBad := fun (x : Word) => (numOfF32 x).isNan || ((numOfF32 x).isInf && !(numOfF32 x).sign)
  if xs = [] then (mx, sum, one, 1, [])
  else if (numOfF32 mx).isNan || xs.any fun x => isBad x.2 then (nan, nan, nan, 0, [])
  else
    let mnew := BitVec.ofNat 32 (xs.foldl (fun a x => fmtF32.maxCode a x.2.toNat) mx.toNat)
    let mn := numOfF32 mnew
    if mn.isInf && mn.sign then (mx, sum, one, 0, [])
    else
      let ps := xs.map fun x => (x.1, pow2P6 (rneF32 (Num.add false (numOfF32 x.2) mn.neg)))
      let cr := pow2F32 (rneF32 (Num.add false (numOfF32 mx) mn.neg))
      let total := Num.add false (Num.mul (numOfF32 sum) cr) (exactSum (ps.map Prod.snd))
      (mnew, f32OfNum total, f32OfNum cr, 0, ps)

/-- The effect of an MMAS on its group (15 R373). -/
def mmasApply (s : State) (c : MatCmd) (as bs : List StreamTile) (g : Group) : Group :=
  let w := c.word
  let sw := cmdSlot s c
  let f := cmdElem s c
  let ch := chunkOf f (slotScale sw)
  let av := (as.map (tileNums sw f c.px.nega)).toArray
  let bv := (bs.map (tileNums sw f c.px.negb)).toArray
  let ds := decisions c as bs
  let base := cwBase w
  let t := base + cwTiles w
  let g0 := if c.px.nacc then statReset g t (cwM w) else g
  let g1 := (List.range (cwM w)).foldl (fun g r =>
    let cols := (List.range (cwN w)).filter (admitted c ds as bs r)
    let xs := cols.map fun k =>
      let sum := accumulate ch.2 ch.1 (cwK w) (opA w av r) (fun x => opB w bv x k) 0
      (k, f32OfNum (Num.mul (numOfF32 (BitVec.ofNat 32 sum)) (numOfF32 c.smscale)))
    let (mx, sum, corr, empty, ps) := mmasRow xs (statGet g t r 0) (statGet g t r 1)
    let g' := statPut (statPut (statPut (statPut g t r 0 mx) t r 1 sum) t r 2 corr) t r 3 empty
    (List.range (cwN w)).foldl (fun g k =>
      accPut g w base r k (match ps.find? fun p => p.1 == k with | none => 0 | some p => (f32OfNum p.2).toNat)) g') g0
  skipPut g1 t (skipGet g1 t + BitVec.ofNat 32 (skippedTiles ds))

/-! ### MMAP (15 R375) -/

/-- Element (r, k) of the P tiles, rounded to p6. -/
def pElem (g : Group) (w aux : Word) (r k : Nat) : Num :=
  p6Value (p6Code (numOfF32 (g.getAcc ((pTiles w aux).1 + (r / 32) * (cwK w / 32) + k / 32) (r % 32) (k % 32))))

/-- The effect of an MMAP on its group (15 R375). -/
def mmapApply (s : State) (c : MatCmd) (bs : List StreamTile) (g : Group) : Group :=
  let w := c.word
  let sw := cmdSlot s c
  let f := cmdElem s c
  let bv := (bs.map (tileNums sw f false)).toArray
  let base := cwBase w
  let t := base + cwTiles w
  let pt := (pTiles w c.aux).1 + (pTiles w c.aux).2
  let pv := ((List.range (cwM w)).map fun r => ((List.range (cwK w)).map (pElem g w c.aux r)).toArray).toArray
  let pa := fun (r k : Nat) => ((pv[r]?).bind fun l => l[k]?).getD (Num.zero false)
  let g1 := accFill g w base fun r k =>
    let b := if c.px.nacc then Num.zero false
      else Num.mul (numOfF32 (BitVec.ofNat 32 (accGet g w base r k))) (numOfF32 (statGet g pt r 2))
    let v := fun (x : Nat) => opB w bv x k
    let first := fmtF32.encode 0 false (Num.add false b (chunkSum (pa r) v 0 32))
    some ((List.range (cwK w / 32 - 1)).foldl (fun acc q => addChunk 0 acc (chunkSum (pa r) v (32 * (q + 1)) 32)) first)
  let g2 := (List.range (cwM w)).foldl (fun g' r =>
    let pe := statGet g pt r 3 &&& 1
    let e := if c.px.nacc then pe else statGet g t r 3 &&& pe
    statPut (statPut (statPut (statPut g' t r 0 (statGet g pt r 0)) t r 1 (statGet g pt r 1)) t r 2 (statGet g pt r 2)) t r 3 e) g1
  skipPut g2 t (skipGet g pt)

/-! ### Scratchpad tiles (10 R255, R256) -/

/-- The element index of position (r, c) of a tile of H × W positions (10 R256). -/
def tileIndex (swizzle h w r c : Nat) : Nat :=
  let wb := (w + 31) / 32
  let b := (r / 32) * wb + c / 32
  match swizzle with
  | 0 => r * (32 * wb) + c
  | 1 => c * (32 * ((h + 31) / 32)) + r
  | 2 => 1024 * b + 32 * (r % 32) + c % 32
  | _ => 1024 * b + 32 * (c % 32) + r % 32

/-- The position of an element index. -/
def tilePos (swizzle h w k : Nat) : Nat × Nat :=
  let wb := max 1 ((w + 31) / 32)
  let hb := max 1 ((h + 31) / 32)
  let b := k / 1024
  let x := k % 1024
  match swizzle with
  | 0 => (k / (32 * wb), k % (32 * wb))
  | 1 => (k % (32 * hb), k / (32 * hb))
  | 2 => (32 * (b / wb) + x / 32, 32 * (b % wb) + x % 32)
  | _ => (32 * (b / wb) + x % 32, 32 * (b % wb) + x / 32)

/-- The bytes of codes of `bits` bits, 4-bit codes packed in pairs low first (04 R91). -/
def packCodes (bits : Nat) : List Nat → List Byte
  | [] => []
  | x :: rest =>
    if bits = 4 then
      match rest with
      | [] => [BitVec.ofNat 8 (x % 16)]
      | y :: r => BitVec.ofNat 8 (x % 16 + 16 * (y % 16)) :: packCodes bits r
    else bytesOfNat (bits / 8) x ++ packCodes bits rest

/-- The data of a tile: its codes in swizzle order, of a plane format plane by plane, and the scale byte of each block (10 R255). -/
def tileData (f : Elem) (swizzle h w : Nat) (codes : Nat → Nat → Nat) (scales : Option (Nat → Nat)) : List Byte :=
  let n := 1024 * tileBlocks h w
  let xs := (List.range n).map fun k => let p := tilePos swizzle h w k; codes p.1 p.2
  let data := match f with
    | .plane p => (List.range p).flatMap fun j => packCodes 4 (xs.map fun x => x / pow2 (4 * (p - 1 - j)) % 16)
    | _ => packCodes f.bits xs
  data ++ match scales with
    | none => []
    | some e => (List.range (tileBlocks h w)).map fun b => BitVec.ofNat 8 (e b)

/-- The header of a tile (10 R255): of 65,536 rows or columns, more than the field holds, its low 16 bits, which are 0 (DESIGN CHOICE,
notes/assumptions/105.md). -/
def tileHeader (gen : Nat) (code : BitVec 6) (swizzle : Nat) (labels transposed : Bool) (h w row col : Nat) : List Byte :=
  bytesOfNat 2 gen ++ [code.setWidth 8, BitVec.ofNat 8 (swizzle + (if labels then 16 else 0) + if transposed then 32 else 0)] ++
    bytesOfNat 2 h ++ bytesOfNat 2 w ++ bytesOfNat 4 row ++ bytesOfNat 4 col

/-- A tile whole: header, labels, and data at its offset; the bytes between stay.  In a running phase the writes stand where the release of
quantum `q` of group `gid` that handed the command over stands (17 R404, R407). -/
def putTile (s : State) (q team gid base : Nat) (header : List Byte) (labels : List Word) (data : List Byte) : State :=
  let s1 := writeSlice s team q gid base (header ++ labels.flatMap fun l => bytesOfNat 4 l.toNat)
  writeSlice s1 team q gid (base + tileDataOff labels.length) data

/-- The slice as a command reads it: as it stands, and in a running phase as its group sees it at the release (14 R348, 17 R407). -/
def cmdView (s : State) (c : MatCmd) (g : Group) : View := teamView s g.team c.quantum (s.gridWideId g)

/-- What a tile header says (10 R255). -/
structure TileHead where
  code    : Nat
  swizzle : Nat
  labels  : Bool
  tr      : Bool
  rows    : Nat
  cols    : Nat
  deriving DecidableEq, Repr

/-- The header of a tile in the slice. -/
def readHead (s : State) (v : View) (team base : Nat) : TileHead :=
  let bs := readLocs s v (.slice team base) 16
  let n := fieldOf bs
  { code := n 2 1, swizzle := bitsOf (n 3 1) 3 0, labels := bitsOf (n 3 1) 4 4 == 1, tr := bitsOf (n 3 1) 5 5 == 1, rows := n 4 2,
    cols := n 6 2 }

/-- Whether a header meets a handle: format and swizzle (10 R257). -/
def headOk (h : TileHead) (x : Handle) : Bool := h.code == x.format.toNat && h.swizzle == x.swizzle.toNat

/-- Labels of a tile: as many as its rows or columns, rounded up to 32 (10 R255). -/
def headLabels (h : TileHead) (rows : Bool) : Nat :=
  if h.labels then 32 * (((if rows != h.tr then h.rows else h.cols) + 31) / 32) else 0

/-! ### MTR (14 R356 to R358) -/

/-- An activation table's f32 at an offset. -/
def actWord (s : State) (v : View) (team off : Nat) : Num := fmtF32.decode (natOfBytes (readLocs s v (.slice team off) 4))

/-- The activation function of a table at a slice offset (14 R357). -/
def activate (s : State) (v : View) (team tab : Nat) (x : Num) : Num :=
  let w := fun (off : Nat) => actWord s v team (tab + off)
  let y := fun (i : Nat) => w (0x10 + 4 * i)
  let sub := fun (a b : Num) => rneF32 (Num.add false a b.neg)
  let add := fun (a b : Num) => rneF32 (Num.add false a b)
  let mul := fun (a b : Num) => rneF32 (Num.mul a b)
  if x.isNan then .nan
  else
    let u := mul (sub x (w 0)) (w 4)
    if u.isNan then .nan
    else if Num.lt u (Num.zero false) then add (y 0) (mul u (w 8))
    else if !(Num.lt u (Num.ofInt 64)) then add (y 64) (mul (sub u (Num.ofInt 64)) (w 0xC))
    else
      let i := ((u.toInt 1).getD 0).toNat
      let frac := Num.add false u (Num.ofInt (-(i : Int)))
      add (y i) (mul frac (sub (y (i + 1)) (y i)))

/-- The numbers of a 32 × 32 block in an e8 form: its scale code and element codes (04 R109, R110).  An n8 or n4 block that holds a negative
value takes all its elements at zero, for the choice of its scale too, so that quantising it again gives the same block (04 R109, R118; that the
scale is that of a zero block is the model's, DESIGN CHOICE, notes/assumptions/83.md). -/
def quantBlock (f : Elem) (rnd : BitVec 2) (xs : List Num) : Nat × List Nat :=
  if xs.any fun x => !x.isFinite then (255, xs.map fun _ => 0)
  else if f.takesZero xs then (0, xs.map fun _ => 0)
  else
    let e := scaleCode f (xs.foldl maxMag (Num.zero false))
    (e, xs.map fun x => f.encodeSat rnd (x.scale (127 - (e : Int))))

/-- The value of an output element of MTR after its bias and activation stages: a code that is written as it stands, or a number
(14 R356). -/
def mtrStage (s : State) (v : View) (c : MatCmd) (team : Nat) (bias : Nat → Num) (code col : Nat) : Num :=
  let ty := cwType c.word
  let x0 := match ty with
    | 1 => fmtF64.decode code
    | 2 => Num.ofInt (toSigned 32 code)
    | _ => fmtF32.decode code
  let x1 := if (c.px.bias || c.px.act) && ty == 2 then rneF32 x0 else x0
  let x2 := if c.px.bias then rneF32 (Num.add false x1 (bias col)) else x1
  if c.px.act then activate s v team (c.aux.toNat + 512 * c.px.atab.toNat) x2 else x2

/-- The code that MTR writes where no e8 scale is chosen (14 R356, R358). -/
def mtrCode (c : MatCmd) (sw : Word) (f : Elem) (code : Nat) (x : Num) : Nat :=
  let staged := c.px.bias || c.px.act
  if c.px.rq then
    match f, cwType c.word with
    | .int _ w, 2 => if staged then f.encode 0 false x else wrapNat w (toSigned 32 code)
    | _, _ => slotFlush sw f (f.encode 0 false x)
  else if staged then (if cwType c.word = 2 then wrapNat 32 (numToIntSat true 32 0 x) else fmtF32.encode 0 false x)
  else code

/-- The effect of an MTR: one scratchpad tile through its handle (14 R356); `bias` gives the bias by column. -/
def mtrApply (s : State) (c : MatCmd) (g : Group) (h : Handle) (bias : Nat → Num) : State :=
  let w := c.word
  let m := cwM w
  let n := cwN w
  let sw := cmdSlot s c
  let f := (elemOf (h.format.setWidth 6)).getD (.float fmtF32)
  let code := fun (r k : Nat) => accGet g w (cwBase w) r k
  let num := fun (r k : Nat) => mtrStage s (cmdView s c g) c g.team bias (code r k) k
  let nb := n / 32
  let data :=
    if c.px.rq && slotScale sw == 1 then
      let blocks := ((List.range (tileBlocks m n)).map fun b =>
        let q := quantBlock f 0 ((List.range 1024).map fun k => num (32 * (b / nb) + k / 32) (32 * (b % nb) + k % 32))
        (q.1, (q.2.map (slotFlush sw f)).toArray)).toArray
      let at_ := fun (b : Nat) => blocks.getD b (0, #[])
      tileData f h.swizzle.toNat m n (fun r k => (at_ ((r / 32) * nb + k / 32)).2.getD (32 * (r % 32) + k % 32) 0)
        (some fun b => (at_ b).1)
    else tileData f h.swizzle.toNat m n (fun r k => mtrCode c sw f (code r k) (num r k)) none
  putTile s c.quantum g.team (s.gridWideId g) (tileBase h) (tileHeader (c.batch.toNat % pow2 16) (h.format.setWidth 6) h.swizzle.toNat false false m n 0 0) [] data

/-! ### MACC forms and MSTAT (14 R359, R360) -/

/-- The tiles that a MACC form names. -/
def maccCount (w : Word) : Nat := cwTiles w + if w.getLsbD 7 then 1 else 0

/-- MZERO: every word of the tiles is zero. -/
def mzeroApply (c : MatCmd) (g : Group) : Group :=
  let lo := 1024 * cwBase c.word
  let hi := lo + 1024 * maccCount c.word
  { g with acc := g.acc.filter fun x => decide (x.1 < lo) || decide (hi ≤ x.1) }

/-- MLDA: the tiles take 4,096 bytes each from the slice. -/
def mldaApply (s : State) (c : MatCmd) (g : Group) : Group :=
  (List.range (1024 * maccCount c.word)).foldl (fun g k =>
    let x := natOfBytes (readLocs s (cmdView s c g) (.slice g.team (c.aux.toNat + 4 * k)) 4)
    { g with acc := sset 0 g.acc (1024 * cwBase c.word + k) (BitVec.ofNat 32 x) }) g

/-- MSTA: the slice takes the tiles. -/
def mstaApply (s : State) (c : MatCmd) (g : Group) : State :=
  let bs := (List.range (1024 * maccCount c.word)).flatMap fun k => bytesOfNat 4 (sget 0 g.acc (1024 * cwBase c.word + k)).toNat
  writeSlice s g.team c.quantum (s.gridWideId g) c.aux.toNat bs

/-- MNORM: every row is divided by its sum, and is +0 when its empty flag is set. -/
def mnormApply (c : MatCmd) (g : Group) : Group :=
  let w := c.word
  let t := cwBase w + cwTiles w
  accFill g w (cwBase w) fun r k =>
    if (statGet g t r 3).getLsbD 0 then some 0
    else some (f32OfNum (Num.div (fmtF32.decode (accGet g w (cwBase w) r k)) (numOfF32 (statGet g t r 1)))).toNat

/-- MSTAT: its result takes the field of the statistics tile (14 R360). -/
def mstatApply (c : MatCmd) (field out reg : Nat) (ls : Word) (g : Group) : Group :=
  let t := (c.word.extractLsb' 0 7).toNat
  let q := (c.word.extractLsb' 7 2).toNat
  let val := fun (i : Nat) => match field with
    | 0 => statGet g t (32 * q + i) 0
    | 1 => statGet g t (32 * q + i) 1
    | 2 => statGet g t (32 * q + i) 3
    | _ => skipGet g t
  let ws := (lanesOf ls).map fun i => ({ reg := .v reg, lane := i, val := val i } : RegWrite)
  g.mapOuts fun o => if o.id = out then { o with awaits := [], writes := ws } else o

/-! ### The consumption of streams (14 R347, R349, 15 R366, R370) -/

/-- The trap of a consumer that reaches a failed feed (10 R259). -/
def feedCause (status : Byte) : Byte :=
  match status.toNat with
  | 2 => causeAccess
  | 3 => causeMemerr
  | 4 => causePage
  | 5 => causeAccess
  | _ => causeTilehdr

/-- The members of a command's joint form, itself when it has none, as their commands in the queues; in member order. -/
def jointMembers (s : State) (c : MatCmd) : List MatCmd :=
  match latchKey s c with
  | none => [c]
  | some (gs, j) =>
    gs.filterMap fun gid => (s.mats.flatMap MatQueue.cmds).find? fun x =>
      x.group == gid && !x.latched && (match latchKey s x with | some k => k == (gs, j) | none => false)

/-- The member that reads A: member 0 of a joint form, else the command itself (14 R351). -/
def aMember (s : State) (c : MatCmd) : MatCmd := (jointMembers s c).headD c

/-- The FIFO of an operand of a command. -/
def operandFifo (s : State) (c : MatCmd) (handle : Nat) : Option Fifo :=
  match s.group? c.group with
  | none => none
  | some g => match s.coreOf g, (g.handle? handle).bind streamOf with
    | some k, some n => fifo? s k n
    | _, _ => none

/-- The tiles of an operand that have come: those consumed, then those in the FIFO. -/
def aSeen (s : State) (c : MatCmd) : List StreamTile :=
  let m := aMember s c
  m.aTiles ++ (match operandFifo s m m.ha with | none => [] | some f => f.tiles)
def bSeen (s : State) (c : MatCmd) : List StreamTile :=
  c.bTiles ++ (match operandFifo s c c.hb with | none => [] | some f => f.tiles)

/-- What is decided for output tile (i, j), when its labels have come; a command without a relation needs every tile. -/
def decideSeen (s : State) (c : MatCmd) (i j : Nat) : Option TileDecision :=
  if c.rel.isNone then some .full
  else
    let as := aSeen s c
    let bs := bSeen s c
    if i * cwKT c.word < as.length ∧ j < bs.length then some (decideOf c as bs i j) else none

/-- Whether some of a list of output tiles is computed: none while that is not known (15 R370). -/
def anyComputed (l : List (Option TileDecision)) : Option Bool :=
  if l.any fun d => match d with | some .skipped => false | some _ => true | none => false then some true
  else if l.any Option.isNone then none else some false

/-- Whether the data of tile n of A, or of B, is needed (15 R370). -/
def neededA (s : State) (c : MatCmd) (n : Nat) : Option Bool :=
  let i := n / cwKT c.word
  anyComputed (((jointMembers s c).filter fun m => m.failed.isNone).flatMap fun m => (List.range (cwN m.word / 32)).map fun j => decideSeen s m i j)
def neededB (s : State) (c : MatCmd) (n : Nat) : Option Bool :=
  let j := n % (cwN c.word / 32)
  match c.kind with
  | .mmap => some true
  | _ => anyComputed ((List.range (cwM c.word / 32)).map fun i => decideSeen s c i j)

/-- Whether a command still takes tiles of an operand.  A member that has failed takes no more of its B; A goes to every member, so member 0
takes it as long as a member has not failed (14 R349, R351). -/
def MatCmd.wants (s : State) (c : MatCmd) (isA : Bool) : Bool :=
  if isA then decide (c.aTiles.length < c.tilesA) && (jointMembers s c).any fun m => m.failed.isNone
  else decide (c.bTiles.length < c.tilesB) && c.failed.isNone

/-- Whether a command, with every member of its joint form, has consumed its tiles or has failed. -/
def allFed (s : State) (c : MatCmd) : Bool := (jointMembers s c).all fun m => !(m.wants s true) && !(m.wants s false)

/-- The command that consumes a FIFO: the first of its group, and which operand it is (10 R261). -/
def consumerOf (s : State) (f : Fifo) : Option (MatCmd × Bool) :=
  match f.bound with
  | none => none
  | some (gid, h) =>
    match (matQ? s f.core).bind fun q => q.cmds.find? fun c => c.group == gid with
    | none => none
    | some c =>
      if c.latched then none
      else if c.ha = h ∧ c.wants s true = true then some (c, true)
      else if c.hb = h ∧ c.wants s false = true then some (c, false)
      else none

/-- Why a command fails at the head tile of a stream: the feed's failure, another scale form, or labels that a relation does not find
(10 R259, 14 R347, 15 R366). -/
def tileFault (s : State) (c : MatCmd) (isA : Bool) (t : StreamTile) : Option (Byte × Dword) :=
  match t.failure with
  | some (st, a) => some (feedCause st, a)
  | none =>
    if t.scale.toNat ≠ slotScale (cmdSlot s c) then some (causeTilehdr, 0)
    else if c.rel.isSome ∧ (t.labels.isNone = true ∨ t.rows ≠ isA) then some (causeTilehdr, 0)
    else none

/-- Changes a command in its queue. -/
def modCmd (s : State) (id : Nat) (f : MatCmd → MatCmd) : State :=
  { s with mats := s.mats.map fun q => { q with cmds := q.cmds.map fun c => if c.id = id then f c else c } }

/-- A command in its queue. -/
def cmd? (s : State) (id : Nat) : Option MatCmd := (s.mats.flatMap MatQueue.cmds).find? fun c => c.id == id

/-- Takes one tile of an operand: from the head of the FIFO into the command, and the position advances (10 R261, 14 R347). -/
def takeTile (s : State) (f : Fifo) (c : MatCmd) (isA : Bool) (t : StreamTile) : State :=
  let s1 := modFifo s f.core f.num fun x => { x with tiles := x.tiles.drop 1 }
  let h := if isA then c.ha else c.hb
  let s2 := s1.modGroup c.group fun g =>
    { g with handles := modBy Handle.num g.handles h fun x => { x with position := x.position + 1 } }
  modCmd s2 c.id fun x => if isA then { x with aTiles := x.aTiles ++ [t] } else { x with bTiles := x.bTiles ++ [t] }

/-- A failure of a command: at once, or for a joint form once the other members' tiles have come; a failure of A is every member's. -/
def failCmd (s : State) (c : MatCmd) (isA : Bool) (cause : Byte) (addr : Dword) : State :=
  if c.joint.isNone then matFail s c cause addr
  else
    let ms := if isA then jointMembers s c else [c]
    ms.foldl (fun s m => modCmd s m.id fun x => if x.failed.isSome then x else { x with failed := some (cause, addr), started := true }) s

/-- Takes the tiles of one operand that have come, as long as they are whole. -/
def takeTiles : Nat → State → Nat → Bool → State
  | 0, s, _, _ => s
  | fuel + 1, s, id, isA =>
    match cmd? s id with
    | none => s
    | some c =>
      if !(c.wants s isA) then s
      else
        match operandFifo s c (if isA then c.ha else c.hb) with
        | none => s
        | some f =>
          match f.tiles with
          | [] => s
          | t :: _ =>
            match tileFault s c isA t with
            | some (k, a) => failCmd s c isA k a
            | none => if t.data.isNone then s else takeTiles fuel (takeTile s f c isA t) id isA

/-! ### Performing a command (14 R342) -/

/-- Removes a command that is complete. -/
def dropCmd (s : State) (id : Nat) : State := { s with mats := s.mats.map fun q => { q with cmds := q.cmds.filter fun c => !(c.id == id) } }

/-- The bias of an MTR by column, or the failure of its tile (14 R356, 10 R257, R259). -/
def biasOf (s : State) (c : MatCmd) (g : Group) : Except (Byte × Dword) (Nat → Num) :=
  if !c.px.bias then .ok fun _ => Num.zero false
  else match g.handle? c.hb with
    | none => .error (causeTilehdr, 0)
    | some h =>
      if h.failed then .error (feedCause h.failure, h.failAddr)
      else
        let v := cmdView s c g
        let hd := readHead s v g.team (tileBase h)
        if !(headOk hd h) || hd.code != 0x02 || decide (hd.cols < cwN c.word) then .error (causeTilehdr, 0)
        else
          let off := tileBase h + tileDataOff (headLabels hd h.labelRows)
          .ok fun col =>
            fmtF32.decode (natOfBytes (readLocs s v (.slice g.team (off + 4 * tileIndex hd.swizzle hd.rows hd.cols 0 col)) 4))

/-- The FMAs of a command that multiplies: M × N × K, of which the skipped tiles take none (01 R15; 14 R361; 15 R376; that those of the matrix
engine are the ones that the register counts is the model's, DESIGN CHOICE, notes/assumptions/54.md). -/
def cmdFmas (c : MatCmd) (skips : Nat) : Nat :=
  match c.kind with
  | .mma | .mmas | .mmap => (cwM c.word * cwN c.word - 1024 * skips) * cwK c.word
  | .mtr | .mzero | .mlda | .msta | .mnorm | .mstat .. => 0

/-- Counts a command, its skipped tiles and its FMAs (20 R454). -/
def countCmd (s : State) (c : MatCmd) (skips : Nat) : State :=
  match (s.group? c.group).bind s.coreOf with
  | none => s
  | some k => ((s.count 2 k 9 1).count 2 k 10 skips).count 2 k 11 (cmdFmas c skips)

/-- Performs a command whose tiles have come; `as` are the tiles of A. -/
def performCmd (s : State) (c : MatCmd) (as : List StreamTile) : State :=
  match s.group? c.group with
  | none => dropCmd s c.id
  | some g =>
    let done := fun (g' : Group) => dropCmd (s.setGroup g') c.id
    let skips := if c.rel.isSome then skippedTiles (decisions c as c.bTiles) else 0
    match c.kind with
    | .mma => countCmd (done (mmaApply s c as c.bTiles g)) c skips
    | .mmas => countCmd (done (mmasApply s c as c.bTiles g)) c skips
    | .mmap => countCmd (done (mmapApply s c c.bTiles g)) c 0
    | .mzero => countCmd (done (mzeroApply c g)) c 0
    | .mlda => countCmd (done (mldaApply s c g)) c 0
    | .mnorm => countCmd (done (mnormApply c g)) c 0
    | .msta => countCmd (dropCmd (mstaApply s c g) c.id) c 0
    | .mstat f o r ls => done (mstatApply c f o r ls g)
    | .mtr =>
      match biasOf s c g, g.handle? c.ha with
      | .error (k, a), _ => matFail s c k a
      | .ok _, none => matFail s c causeTilehdr 0
      | .ok bias, some h => countCmd (dropCmd (mtrApply s c g h bias) c.id) c 0

/-- The first command of a group in the queue of a core. -/
def nextCmd (s : State) (core gid : Nat) : Option MatCmd := (matQ? s core).bind fun q => q.cmds.find? fun c => c.group == gid

/-- Whether the FEEDs that a command waits for have completed (10 R261, 14 R356). -/
def fillsDone (s : State) (core : Nat) (c : MatCmd) : Bool :=
  c.fills.all fun x => match feeder? s core x.1 with | none => true | some q => seqDone q.done x.2 || q.ahead.contains x.2

/-- Whether a command can begin: it is the first of its group, is not held at a latch, and the FEEDs that it waits for have completed. -/
def canBegin (s : State) (core : Nat) (c : MatCmd) : Bool :=
  (nextCmd s core c.group).any (fun x => x.id == c.id) && !c.latched && fillsDone s core c

/-- Whether a command begins next: of those that can begin, commands of different groups do so in queue order (14 R342; DEDUCED,
notes/assumptions/86.md). -/
def beginsNext (s : State) (core : Nat) (c : MatCmd) : Bool :=
  match matQ? s core with
  | none => false
  | some q => (q.cmds.takeWhile fun x => x.id != c.id).all fun x => x.started || !(canBegin s core x)

/-- Whether the engine has something to do for a group: its next command begins, or one that it has begun is complete or its next tile has
come (10 R261, 14 R342). -/
def engineReady (s : State) (core gid : Nat) : Bool :=
  partWorks s (partOfCore s core) &&
  match nextCmd s core gid with
  | none => false
  | some c =>
    let tileIn := fun (isA : Bool) =>
      match (operandFifo s c (if isA then c.ha else c.hb)).map Fifo.tiles with
      | some (t :: _) => t.data.isSome || (tileFault s c isA t).isSome
      | _ => false
    canBegin s core c &&
      (if c.started then allFed s c || (c.wants s true && tileIn true) || (c.wants s false && tileIn false) else beginsNext s core c)

/-- The joint form of a command is performed: each member that has not failed, with the tiles of member 0 (14 R351); those that have
failed take their traps (14 R349). -/
def performAll (s : State) (c : MatCmd) : State :=
  let ms := jointMembers s c
  let as := (ms.headD c).aTiles
  let s1 := (ms.filter fun m => m.failed.isNone).foldl (fun s m => performCmd s m as) s
  matFailAll s1 (ms.filterMap fun m => m.failed.map fun x => (m, x.1, x.2))

/-- The feed of a FIFO that has delivered every tile: its feeder and the feed (10 R258). -/
def deliveredFeed (s : State) (f : Fifo) : Option (Feeder × Feed) :=
  s.feeders.findSome? fun q =>
    match q.running, q.items with
    | some k, .cmd x :: _ =>
      let total := ((parseShape q.shape).rpt + 1) * (((x.h.toNat + 31) / 32) * ((x.w.toNat + 31) / 32))
      if q.core = f.core ∧ f.bound = some (x.group, x.handle) ∧ x.wb = false ∧ x.dest.getLsbD 31 = false ∧ total ≤ k then some (q, x) else none
    | _, _ => none

/-- Whether a tile of a FIFO still waits for its data: none does behind a failed one (10 R259, 15 R370). -/
def Fifo.waiting (f : Fifo) : Bool := (f.tiles.takeWhile fun t => t.failure.isNone).any fun t => t.data.isNone

/-- A feed leaves its feeder; it is complete then, unless it has failed before (10 R258, R262). -/
def endFeed (s : State) (core n : Nat) (x : Feed) : State :=
  let s1 := modFeeder s core n fun q =>
    { (if x.failed then q else q.finish x.seq) with
      items := q.items.drop 1, running := none, shape := [], index := [], pause := none, got := {}, past := none, wire := [] }
  if x.failed then s1 else wakeQueue s1 (fun g => s1.coreOf g == some core) (16 + n) x.seq x.quantum (some x.grid)

/-- A feed of a labelled stream is complete once no tile of it waits for its data, and its tier-3 requests have been acknowledged (10 R258,
15 R370; 19 R426). -/
def finishStream (s : State) (core fifo : Nat) : State :=
  match fifo? s core fifo with
  | none => s
  | some f =>
    if f.waiting then s
    else match deliveredFeed s f with
      | none => s
      | some (q, x) =>
        if q.wire ≠ [] then s else
        endFeed s core q.num x

/-- MATRIX_ENGINE_START (R342): the engine takes the next command of a group, consumes the tiles that have come, and performs it when it
has all of them; the accumulators change only then. -/
def execMatrixEngineStart (core gid : Nat) (s : State) : Host.Outcome State Fault Refusal :=
  .next (if engineReady s core gid then
    match nextCmd s core gid with
    | none => s
    | some c =>
      let s1 := modCmd s c.id fun x => { x with started := true }
      let s2 := takeTiles 8192 s1 c.id true
      let s3 := takeTiles 8192 s2 c.id false
      match cmd? s3 c.id with
      | none => s3
      | some c' => if allFed s3 c' then performAll s3 c' else s3
  else s)

/-- RENDEZVOUS_TIMEOUT (R352): the latch at which a group's joint command waits fails; its arrived members trap GANG (R349). -/
def execRendezvousTimeout (gid : Nat) (s : State) : Host.Outcome State Fault Refusal :=
  .next (match s.latches.find? fun l => !l.failed && l.arrived.any fun c => c.group == gid with
    | none => s
    | some l =>
      if !(partWorks s (((s.group? gid).map Group.part).getD 0)) then s
      else
        let s1 : State := { s with latches := s.latches.map fun y =>
          if y.members = l.members ∧ y.j = l.j then { y with failed := true, arrived := [] } else y }
        let s2 := match (s.group? gid).bind s.coreOf with | some k => s1.count 1 (k / 4) 1 1 | none => s1
        matFailAll s2 (l.arrived.map fun c => (c, causeGang, 0)))

end Sys2Proof.Machine
end

