-- ==== Sys2Proof/Machine/FeederEvents.lean ====
section
/-!
DEFINITION. The feeders: FEED_START, STREAM_TILE_DELIVERY and DEFERRED_DATA_FETCH (10 R251, R255 to R261; 15 R370), and how engines write
elements and blocks through a record (10 R250, R265; 08 R233).
-/

namespace Sys2Proof.Machine

/-! ### Pauses (10 R260) -/

/-- What a paused engine may do: nothing, go on, or fail at an address that was answered with fail. -/
inductive Resume where
  | wait | go
  | fail (addr : Dword)
  deriving DecidableEq, Repr

/-- An engine that has no pause goes on; one whose record found no room in the fault queue tries again (08 R221). -/
def resumeOf (p : Option Pause) : Resume :=
  match p with
  | none => .go
  | some x => match x.failed with
    | some a => .fail a
    | none => if x.open_ = [] then .go else .wait

/-! ### Writes through a record -/

/-- A write of an engine, resolved: its location and bytes, or the bits of them that change. -/
def engPiece (s : State) (e : EngCtx) (a : Int) (bs mask : List Byte) : Except (State × EngErr) (State × Piece) :=
  match engLoc s e (if mask = [] then .store else .update) a bs.length with
  | .error x => .error x
  | .ok (s1, l) => .ok (s1, { loc := l, addr := BitVec.ofInt 64 a, bytes := bs, mask := mask })

/-- A nibble write at a nibble address (10 R265). -/
def engNibblePiece (s : State) (e : EngCtx) (na : Int) (v : Nat) : Except (State × EngErr) (State × Piece) :=
  if na % 2 = 0 then engPiece s e (na / 2) [BitVec.ofNat 8 (v % 16)] [0x0F#8]
  else engPiece s e (na / 2) [BitVec.ofNat 8 (v % 16 * 16)] [0xF0#8]

/-- Performs a resolved write; one of a commit unit of planes is seen whole by those that read (08 R233). -/
def engApply (s : State) (e : EngCtx) (p : Piece) : State :=
  engPut (if p.plane && !e.eph then keepPast s e.queue p.loc p.bytes.length else s) e p.loc ((List.range p.bytes.length).map fun i => p.onto (p.loc.plus i) (readLoc s e.view (p.loc.plus i)))

/-- The nibble writes of an element's planes, plane 0 first. -/
def planePieces (e : EngCtx) (na : Int) (stride n code : Nat) : Nat → State → Except (State × EngErr) (State × List Piece)
  | 0, s => .ok (s, [])
  | k + 1, s =>
    match planePieces e na stride n code k s with
    | .error x => .error x
    | .ok (s1, ps) =>
      match engNibblePiece s1 e (na + 2 * ((stride * k : Nat) : Int)) (code / pow2 (4 * (n - 1 - k))) with
      | .error x => .error x
      | .ok (s2, p) => .ok (s2, ps ++ [p])

/-- The writes of one element's code. -/
def elemPieces (s : State) (e : EngCtx) (r : Shape) (i : List Nat) (code : Nat) : Except (State × EngErr) (State × List Piece) :=
  match r.elem with
  | .plane n => planePieces e (2 * (r.base : Int) + r.offset i) r.plane n code n s
  | f =>
    match elemAddr s e r i with
    | .error x => .error x
    | .ok (s1, a, na) =>
      let one := if f.bits = 4 then engNibblePiece s1 e na code else engPiece s1 e a (bytesOfNat (f.bits / 8) code) []
      match one with
      | .error x => .error x
      | .ok (s2, p) => .ok (s2, [p])

/-- The writes of a list of elements. -/
def listPieces (e : EngCtx) (r : Shape) : List (List Nat × Nat) → State → Except (State × EngErr) (State × List Piece)
  | [], s => .ok (s, [])
  | (i, c) :: rest, s =>
    match elemPieces s e r i c with
    | .error x => .error x
    | .ok (s1, ps) =>
      match listPieces e r rest s1 with
      | .error x => .error x
      | .ok (s2, qs) => .ok (s2, ps ++ qs)

/-- The e8 block of source indices, as the index of its scale byte (04 R108, 10 R250). -/
def blockKey (r : Shape) (i : List Nat) : Nat :=
  let rc := r.canon i
  if r.rank = 1 then rc.2 / 1024 else (rc.1 / 32) * ((r.e 0 + 31) / 32) + rc.2 / 32

/-- Elements gathered into the units in which an engine writes them: of an e8 form the elements of a block, else one by one (08 R233). -/
def unitsOf {α : Type} (r : Shape) (xs : List (List Nat × α)) : List (List (List Nat × α)) :=
  if r.scale = 1 then
    ((xs.map fun x => blockKey r x.1).eraseDups).map fun k => xs.filter fun x => blockKey r x.1 == k
  else xs.map fun x => [x]

/-- The scale byte and the codes of a block whose positions come with a stored scale, or with none where they are synthesised: one scale
stays; no real position gives 127; from several, which no rule covers, the byte and the codes are free values (10 R251). -/
def mergeBlock (s : State) (f : Elem) (xs : List (Option Nat × Nat)) : Nat × List Nat × State :=
  match (xs.filterMap Prod.fst).eraseDups with
  | [] => (127, xs.map Prod.snd, s)
  | [k] =>
    (k, xs.map fun x => match x.1 with
      | some _ => x.2
      | none => if k = 255 then 0 else f.encodeSat 0 ((f.value x.2).scale (127 - (k : Int))), s)
  | _ =>
    (Config.openCode s.free % 256, xs.mapIdx fun i _ => Config.openCode (s.free + 1 + i) % pow2 f.bits,
     { s with free := s.free + 1 + xs.length })

/-- Writes one unit through a record: every access is resolved first, so a unit is written whole or not at all (08 R233, 10 R260). -/
def writeUnit (s : State) (e : EngCtx) (r : Shape) (u : List (List Nat × Option Nat × Nat)) : Except (State × EngErr) State :=
  let m := if r.scale = 1 then mergeBlock s r.elem (u.map Prod.snd) else (0, u.map fun x => x.2.2, s)
  match listPieces e r (List.zip (u.map Prod.fst) m.2.1) m.2.2 with
  | .error x => .error x
  | .ok (s1, ps) =>
    let done := fun (s : State) (qs : List Piece) => qs.foldl (fun s p => engApply s e { p with plane := r.elem.isPlane }) s
    match r.scale, u with
    | 1, (i, _) :: _ =>
      match scaleAddr r (r.canon i) with
      | none => .ok (done s1 ps)
      | some (a, _) =>
        match engPiece s1 e a [BitVec.ofNat 8 m.1] [] with
        | .error x => .error x
        | .ok (s2, p) => .ok (done s2 (ps ++ [p]))
    | _, _ => .ok (done s1 ps)

/-! ### Feeds -/

/-- For whom a feed works (10 R259; 08 R221, R233; 17 R407). -/
def feedCtx (s : State) (core n : Nat) (x : Feed) : EngCtx :=
  let gid := ((s.group? x.group).map s.gridWideId).getD 0
  let past := ((feeder? s core n).bind Feeder.past).getD []
  { rights := x.rights, view := { teamView s x.team x.quantum gid with past := past }, eph := ((s.grid? x.grid).bind Grid.phase).isSome,
    req := requester 1 (core * 4 + n), team := x.team, gid := gid, q := x.quantum, queue := .feeder core n }

/-- The feed at the head of a feeder. -/
def headFeed (q : Feeder) : Option Feed := match q.items with | .cmd x :: _ => some x | _ => none

/-- Whether all that the running feed does is done but for acknowledgements of its tier-3 requests, without which it is not complete
(10 R258; 19 R426): it has put its record away. -/
def Feeder.drained (q : Feeder) : Bool := q.running.isSome && q.shape.isEmpty

/-- A feed to a tile, or a write-back, has done all that it does. -/
def settleFeed (s : State) (core n : Nat) (x : Feed) : State :=
  if (feeder? s core n).any fun q => !q.wire.isEmpty then modFeeder s core n fun q => { q with running := some 0, shape := [], index := [], past := none }
  else endFeed s core n x

/-- The tile that stands where a stream failed (10 R259). -/
def failTile (status : Byte) (addr : Dword) : StreamTile :=
  { format := 0, scale := 0, labels := none, rows := false, data := none, failure := some (status, addr), index := 0 }

/-- A handle's feed has failed (10 R259). -/
def failHandle (s : State) (x : Feed) (status : Byte) (addr : Dword) : State :=
  s.modGroup x.group fun g =>
    { g with handles := modBy Handle.num g.handles x.handle fun h => { h with failed := true, failure := status, failAddr := addr } }

/-- A feed to a stream. -/
def Feed.isStream (x : Feed) : Bool := !(x.dest.getLsbD 31) && !x.wb

/-- Rows and columns of the delivered window (10 R258). -/
def Feed.rows (x : Feed) : Nat := if x.tr then x.w.toNat else x.h.toNat
def Feed.cols (x : Feed) : Nat := if x.tr then x.h.toNat else x.w.toNat

/-- Tiles of one pass over the delivered window, and of the whole feed (10 R258). -/
def Feed.passTiles (x : Feed) : Nat := ((x.rows + 31) / 32) * ((x.cols + 31) / 32)
def feedTotal (q : Feeder) (x : Feed) : Nat := ((parseShape q.shape).rpt + 1) * x.passTiles

/-- A feed fails: its handle says so, its stream ends in a failure, and the feed is complete (10 R258, R259).  Labelled tiles before the
failure are still consumed normally, so the feed stays, delivering nothing, until they have their data or need none (15 R370). -/
def failFeed (s : State) (core n : Nat) (x : Feed) (status : Byte) (addr : Dword) : State :=
  let s1 := failHandle s x status addr
  if x.isStream then
    let fifo := (x.dest.extractLsb' 0 4).toNat
    let mine := fun (f : Fifo) => f.bound == some (x.group, x.handle)
    let s2 := modFifo s1 core fifo fun f => if mine f then { f with tiles := f.tiles ++ [failTile status addr] } else f
    if (fifo? s2 core fifo).any fun f => mine f && f.waiting then
      let s3 := modFeeder s2 core n fun q => { q.finish x.seq with
        items := .cmd { x with failed := true } :: q.items.drop 1, running := some (feedTotal q x), pause := none, got := {}, wire := [] }
      wakeQueue s3 (fun g => s3.coreOf g == some core) (16 + n) x.seq x.quantum (some x.grid)
    else endFeed s2 core n x
  else endFeed s1 core n x

/-- A feed stops at an error: it fails, or it pauses where it stands (10 R259, R260). -/
def stopFeed (s : State) (core n : Nat) (x : Feed) (err : EngErr) : State :=
  match err with
  | .fail st a => failFeed s core n x st a
  | .page a k w =>
    let p := engPause s (feedCtx s core n x) a k w
    modFeeder p.1 core n fun q => { q with pause := some p.2 }

/-- A position of the delivered window as one of the padded view; none past its rows or columns. -/
def Feed.at (x : Feed) (i j : Nat) : Option (Nat × Nat) :=
  if i < x.rows ∧ j < x.cols then
    some (if x.tr then (x.row0.toNat + j, x.col0.toNat + i) else (x.row0.toNat + i, x.col0.toNat + j))
  else none

/-- Whether the delivered labels are those of rows (10 R258). -/
def Feed.labelRows (x : Feed) (r : Shape) : Bool := r.rows != x.tr

/-- Reads one thing after another; of those that come before one that cannot be read, an error gives what they gave. -/
def readAll {α β : Type} (one : State → α → Except (State × EngErr) (State × β)) : List α → State → Except (State × EngErr × List β) (State × List β)
  | [], s => .ok (s, [])
  | a :: rest, s =>
    match one s a with
    | .error (s1, y) => .error (s1, y, [])
    | .ok (s1, v) =>
      match readAll one rest s1 with
      | .error (s2, y, l) => .error (s2, y, v :: l)
      | .ok (s2, l) => .ok (s2, v :: l)

/-- Reads a delivered position, from the planes that have been read on: the code and the stored scale, or none where it is synthesised. -/
def readCell (e : EngCtx) (r : Shape) (index : List (Nat × Option Nat)) (x : Feed) (qs : List Nat) (s : State) (p : Nat × Nat) :
    Except (State × EngErr × List Nat) (State × Option (Nat × Nat)) :=
  match x.at p.1 p.2 with
  | none => .ok (s, none)
  | some (a, b) => readPosFrom s e r index a b qs

/-- Reads a list of delivered positions, the first from the planes that have been read of it; at an error, the positions that have come, and the
planes of the next (10 R260). -/
def readCells (e : EngCtx) (r : Shape) (index : List (Nat × Option Nat)) (x : Feed) :
    List (Nat × Nat) → List Nat → State → Except (State × EngErr × List (Option (Nat × Nat)) × List Nat) (State × List (Option (Nat × Nat)))
  | [], _, s => .ok (s, [])
  | p :: rest, qs, s =>
    match readCell e r index x qs s p with
    | .error (s1, y, far) => .error (s1, y, [], far)
    | .ok (s1, v) =>
      match readCells e r index x rest [] s1 with
      | .error (s2, y, l, far) => .error (s2, y, v :: l, far)
      | .ok (s2, l) => .ok (s2, v :: l)

/-- Reads the label of the k-th delivered row or column; one past the window is 0 (10 R251, R258). -/
def labelAt (e : EngCtx) (r : Shape) (index : List (Nat × Option Nat)) (x : Feed) (s : State) (k : Nat) : Except (State × EngErr) (State × Word) :=
  let size := if x.labelRows r then x.rows else x.cols
  let first := if r.rows then x.row0.toNat else x.col0.toNat
  if k < size then readLabel s e r index (first + k) else .ok (s, 0)

/-- The delivered positions of block (i, j), row-major. -/
def blockPositions (i j : Nat) : List (Nat × Nat) := (List.range 1024).map fun k => (32 * i + k / 32, 32 * j + k % 32)

/-- The record of a feed as it is read afresh, with its gather indices; its checks (10 R252, R253, R258, R259, R275). -/
def feedRecord (s : State) (e : EngCtx) (x : Feed) : Except (State × EngErr) (State × List Byte × List (Nat × Option Nat)) :=
  match engRecord s e x.record.toNat with
  | .error y => .error y
  | .ok (s1, bs) =>
    let r := parseShape bs
    let range := fun (n : Word) => decide (1 ≤ n.toNat) && decide (n.toNat ≤ 65536)
    let same := match (s.group? x.group).bind fun g => g.handle? x.handle with
      | none => false
      | some h => r.code.setWidth 8 == h.format && r.swizzle == h.swizzle.toNat && r.rows == h.labelRows
    if shapeOk r = false then .error (s1, .fail errCmd x.record)
    else if same = false then .error (s1, .fail errHdr x.record)
    else if (range x.h && range x.w && r.holds x.row0.toNat x.col0.toNat x.h.toNat x.w.toNat) = false then
      .error (s1, .fail errCmd x.record)
    else
      match windowIndices s1 e r x.row0.toNat x.h.toNat with
      | .error y => .error y
      | .ok (s2, _, ix) => .ok (s2, bs, ix)

/-! ### Tile destinations (10 R255, R256, R258) -/

/-- The bounds of a tile in the slice of a team: a tile past it fails its feed. -/
def tileFits (s : State) (team base n : Nat) : Bool := (s.team? team).any fun t => decide (base + n ≤ t.sliceLen)

/-- The slice address of a tile as software names it (08 R208). -/
def winAddr (off : Nat) : Dword := BitVec.ofNat 64 (0xFFFE * pow2 48 + off)

/-- A block of a tile as its positions were read: its scale byte and its codes, row-major. -/
def mergeCells (s : State) (r : Shape) (l : List (Option (Nat × Nat))) : State × Nat × List Nat :=
  let xs := l.map fun v => match v with | none => (none, r.padRead) | some (c, sc) => (some sc, c)
  let m := if r.scale = 1 then mergeBlock s r.elem xs else (0, xs.map Prod.snd, s)
  (m.2.2, m.1, m.2.1)

/-- The positions of a block read, from where its fill stands (10 R260). -/
def fillCells (e : EngCtx) (r : Shape) (index : List (Nat × Option Nat)) (x : Feed) (i j : Nat) (got : TileFill) (s : State) :
    Except (State × EngErr × TileFill) (State × List (Option (Nat × Nat))) :=
  match readCells e r index x ((blockPositions i j).drop got.cells.length) got.planes s with
  | .error (s1, y, l, far) => .error (s1, y, { got with cells := got.cells ++ l, planes := far })
  | .ok (s1, l) => .ok (s1, got.cells ++ l)

/-- The blocks of a tile read and merged, from where the fill stands, `n` of them left; at an error, how far it has come. -/
def fillBlocks (e : EngCtx) (r : Shape) (index : List (Nat × Option Nat)) (x : Feed) (wb : Nat) :
    Nat → TileFill → State → Except (State × EngErr × TileFill) (State × TileFill)
  | 0, got, s => .ok (s, got)
  | n + 1, got, s =>
    let k := got.blocks.length
    match fillCells e r index x (k / wb) (k % wb) got s with
    | .error y => .error y
    | .ok (s1, l) =>
      let m := mergeCells s1 r l
      fillBlocks e r index x wb n { got with blocks := got.blocks ++ [m.2], cells := [], planes := [] } m.1

/-- The labels and then the blocks of a tile, `nl` and `nb` of them, from where the fill stands (10 R260). -/
def fillReads (e : EngCtx) (r : Shape) (index : List (Nat × Option Nat)) (x : Feed) (wb nl nb : Nat) (got : TileFill) (s : State) :
    Except (State × EngErr × TileFill) (State × TileFill) :=
  match readAll (labelAt e r index x) ((List.range nl).drop got.labels.length) s with
  | .error (s1, y, l) => .error (s1, y, { got with labels := got.labels ++ l })
  | .ok (s1, l) => fillBlocks e r index x wb (nb - got.blocks.length) { got with labels := got.labels ++ l } s1

/-- The canonical coordinates of the first real position of a tile, row-major (10 R255). -/
def tileOrigin (r : Shape) (index : List (Nat × Option Nat)) (x : Feed) : Option (Nat × Nat) :=
  (List.range x.rows).findSome? fun i => (List.range x.cols).findSome? fun j =>
    (x.at i j).bind fun p => (r.source index p.1 p.2).map r.canon

/-- Fills a scratchpad tile with a window, from where the fill stands (10 R260): it is written once all of it has been read. -/
def fillTile (s : State) (e : EngCtx) (r : Shape) (index : List (Nat × Option Nat)) (x : Feed) (got : TileFill) :
    Except (State × EngErr × TileFill) State :=
  let h := x.rows
  let w := x.cols
  let base := 128 * (x.dest.extractLsb' 0 17).toNat
  let f := r.elem
  let e8 := r.scale == 1
  let nl := if r.labels then 32 * (((if x.labelRows r then h else w) + 31) / 32) else 0
  if tileFits s x.team base (tileBytes f e8 h w nl) = false then .error (s, .fail errAccess (winAddr base), got)
  else
    let wb := (w + 31) / 32
    match fillReads e r index x wb nl (tileBlocks h w) got s with
    | .error y => .error y
    | .ok (s2, all) =>
      let blocks := (all.blocks.map fun b => (b.1, b.2.toArray)).toArray
      let at_ := fun (b : Nat) => blocks.getD b (0, #[])
      let (org, s3) : (Nat × Nat) × State := match tileOrigin r index x with
        | some o => (o, s2)
        | none => ((Config.openCode s2.free, Config.openCode (s2.free + 1)), { s2 with free := s2.free + 2 })
      let codes := fun (i j : Nat) => (at_ ((i / 32) * wb + j / 32)).2.getD (32 * (i % 32) + j % 32) 0
      let data := tileData f r.swizzle h w codes (if e8 then some fun b => (at_ b).1 else none)
      let head := tileHeader (x.seq.toNat % pow2 16) r.code r.swizzle r.labels x.tr h w org.1 org.2
      .ok (putTile s3 e.q x.team e.gid base head all.labels data)

/-! ### Write-back (10 R257, R258) -/

/-- The code of a tile position, its planes joined, and the scale byte of its block. -/
def tileCode (s : State) (v : View) (team base : Nat) (hd : TileHead) (f : Elem) (e8 : Bool) (lab i j : Nat) : Nat × Nat :=
  let data := base + tileDataOff lab
  let k := tileIndex hd.swizzle hd.rows hd.cols i j
  let byte := fun (off : Nat) => natOfBytes (readLocs s v (.slice team off) 1)
  let nib := fun (at_ n : Nat) => if n % 2 = 0 then byte (at_ + n / 2) % 16 else byte (at_ + n / 2) / 16
  let blocks := tileBlocks hd.rows hd.cols
  let code := match f with
    | .plane n => (List.range n).foldl (fun acc p => 16 * acc + nib (data + 512 * blocks * p) k) 0
    | _ => if f.bits = 4 then nib data k else natOfBytes (readLocs s v (.slice team (data + k * (f.bits / 8))) (f.bits / 8))
  (code, if e8 then byte (data + blocks * 128 * f.bits + (i / 32) * ((hd.cols + 31) / 32) + j / 32) else 127)

/-- The real positions of a window that a write-back writes, with the tile position each comes from. -/
def backPositions (r : Shape) (index : List (Nat × Option Nat)) (x : Feed) : List (List Nat × (Nat × Nat)) :=
  (List.range x.h.toNat).flatMap fun i => (List.range x.w.toNat).filterMap fun j =>
    (r.source index (x.row0.toNat + i) (x.col0.toNat + j)).map fun q => (q, if x.tr then (j, i) else (i, j))

/-- Writes the units of a write-back from the k-th on; gives the number it came to. -/
def backUnits (e : EngCtx) (r : Shape) (read : State → Nat → Nat → Nat × Nat) :
    List (List (List Nat × (Nat × Nat))) → Nat → State → State × Nat × Option EngErr
  | [], k, s => (s, k, none)
  | u :: rest, k, s =>
    let xs := u.map fun y => let c := read s y.2.1 y.2.2; (y.1, some c.2, c.1)
    match writeUnit s e r xs with
    | .error (s1, err) => (s1, k, some err)
    | .ok s1 => backUnits e r read rest (k + 1) s1

/-- A write-back goes on: the header is checked, and the units not yet written are.  The window is not held to the rows and columns of the header: a
position beyond them reads the slice where the header's layout would have it (DESIGN CHOICE, notes/assumptions/105.md). -/
def runBack (s : State) (core n : Nat) (x : Feed) (h : Handle) (bs : List Byte) (index : List (Nat × Option Nat)) (k : Nat) : State :=
  let e := feedCtx s core n x
  let r := parseShape bs
  let base := tileBase h
  let hd := readHead s e.view x.team base
  let lab := headLabels hd r.rows
  if tileFits s x.team base 16 = false then failFeed s core n x errAccess (winAddr base)
  else if headOk hd h = false then failFeed s core n x errHdr (winAddr base)
  else if tileFits s x.team base (tileBytes r.elem (r.scale == 1) hd.rows hd.cols lab) = false then failFeed s core n x errAccess (winAddr base)
  else
    let read := fun (s : State) (i j : Nat) => tileCode s e.view x.team base hd r.elem (r.scale == 1) lab i j
    match backUnits e r read ((unitsOf r (backPositions r index x)).drop k) k s with
    | (s1, _, none) => settleFeed s1 core n x
    | (s1, k1, some err) =>
      stopFeed (modFeeder s1 core n fun q => { q with running := some k1, shape := bs, index := index }) core n x err

/-- A fill of a tile goes on from where it stands; at a page that is not present it records its position, the record and the indices that it has
read with it (10 R260). -/
def runFill (s : State) (core n : Nat) (x : Feed) (bs : List Byte) (index : List (Nat × Option Nat)) (got : TileFill) : State :=
  match fillTile s (feedCtx s core n x) (parseShape bs) index x got with
  | .ok s1 => settleFeed s1 core n x
  | .error (s1, err, far) => stopFeed (modFeeder s1 core n fun q => { q with running := some 0, shape := bs, index := index, got := far }) core n x err

/-! ### FEED_START (10 R258, R261, R275) -/

/-- Whether a FEED into a tile, or a write-back of one, must wait for commands issued before it that use the handle (10 R261). -/
def feedWaits (s : State) (core : Nat) (x : Feed) : Bool :=
  x.dest.getLsbD 31 && (match matQ? s core with
    | none => false
    | some q => q.cmds.any fun c => c.group == x.group && decide (c.index < x.after) && c.handles.contains x.handle)

/-- A feed whose group has exited, with no matrix command left to consume it, delivers nothing further (06 R169, 10 R274). -/
def feedOrphan (s : State) (core : Nat) (x : Feed) : Bool :=
  x.isStream && (s.group? x.group).all (fun g => g.exited) &&
  !((matQ? s core).any fun q => q.cmds.any fun c => c.group == x.group)

/-- Whether a feeder can start, or go on with, the feed at its head. -/
def feedReady (s : State) (core n : Nat) : Bool :=
  match feeder? s core n with
  | none => false
  | some q =>
    match headFeed q with
    | none => false
    | some x => partWorks s x.rights.part && resumeOf q.pause != .wait && !(x.isStream && q.running.isSome) && !(q.drained && !q.wire.isEmpty) &&
        !(feedWaits s core x) && (q.running.isSome || !(atomicsBefore s x.group x.quantum))

/-- What a feeder keeps of the commit units of planes while a feed runs: one of a plane format sees every unit as it was when it began (08 R233). -/
def Feeder.keeps (x : Feeder) (planes : Bool) : Feeder := { x with past := if planes then some [] else none }

/-- FEED_START (R258): the feeder reads the record of its next feed afresh and checks the window; a tile is filled or written back, and a
stream begins.  A feed that paused goes on where it stood. -/
def execFeedStart (core n : Nat) (s : State) : Host.Outcome State Fault Refusal :=
  .next (if feedReady s core n = false then s
  else match feeder? s core n with
    | none => s
    | some q =>
      match headFeed q, resumeOf q.pause with
      | none, _ => s
      | some x, .fail a => failFeed s core n x errPage a
      | some x, _ =>
        let s0 := modFeeder s core n fun q => { q with pause := none }
        if feedOrphan s core x || q.drained then endFeed s0 core n x
        else
          match (s.group? x.group).bind fun g => g.handle? x.handle, q.running with
          | none, _ => failFeed s0 core n x errHdr x.record
          | some h, some k => if x.wb then runBack s0 core n x h q.shape q.index k else runFill s0 core n x q.shape q.index q.got
          | some h, none =>
            match feedRecord s0 (feedCtx s0 core n x) x with
            | .error (s1, err) => stopFeed s1 core n x err
            | .ok (s1, bs, ix) =>
              if x.wb then runBack s1 core n x h bs ix 0
              else
                let s2 := modFeeder s1 core n fun q => q.keeps (parseShape bs).elem.isPlane
                if x.isStream then modFeeder s2 core n fun q => { q with running := some 0, shape := bs, index := ix }
                else runFill s2 core n x bs ix {})

/-! ### STREAM_TILE_DELIVERY and DEFERRED_DATA_FETCH (10 R258, R260, R261; 15 R370) -/

/-- Row-tile and column-tile of tile k of a feed, in its order. -/
def Feed.tileAt (x : Feed) (k : Nat) : Nat × Nat :=
  let th := max 1 ((x.rows + 31) / 32)
  let tw := max 1 ((x.cols + 31) / 32)
  let p := k % (th * tw)
  if x.cm then (p % th, p / th) else (p / tw, p % tw)

/-- Bytes of a stream tile in its FIFO: its labels, and its data once fetched. -/
def StreamTile.room (t : StreamTile) : Nat :=
  (if t.labels.isSome then 128 else 0) +
  (match t.data, elemOf t.format with | some (_ :: _), some f => 128 * f.bits | _, _ => 0)

/-- Bytes of a stream FIFO (01 R10). -/
def fifoBytes : Nat := 32768

/-- The elements of a stream tile (04 R101, R107; 10 R251). -/
def streamElems (r : Shape) (l : List (Option (Nat × Nat))) : List StreamElem :=
  l.map fun v => match v with
    | none => { code := r.padRead, scale := scaleNum 0 0 }
    | some (c, k) => { code := c, scale := scaleNum r.scale k }

/-- Reads the elements of tile k of a feed, from where its fetch stands (10 R260). -/
def readTileData (s : State) (e : EngCtx) (r : Shape) (index : List (Nat × Option Nat)) (x : Feed) (k : Nat) (got : TileFill) :
    Except (State × EngErr × TileFill) (State × List StreamElem) :=
  let t := x.tileAt k
  match fillCells e r index x t.1 t.2 got s with
  | .error y => .error y
  | .ok (s1, l) => .ok (s1, streamElems r l)

/-- Tile k of a feed as it enters the FIFO, from where its delivery stands (10 R260): labels with the data still to fetch, or the data of a record
without labels. -/
def streamTile (s : State) (e : EngCtx) (r : Shape) (index : List (Nat × Option Nat)) (x : Feed) (k : Nat) (got : TileFill) :
    Except (State × EngErr × TileFill) (State × StreamTile) :=
  let t : StreamTile := { format := r.code, scale := BitVec.ofNat 2 r.scale, labels := none, rows := x.labelRows r, data := none, failure := none, index := k }
  if r.labels then
    let p := x.tileAt k
    let first := 32 * (if x.labelRows r then p.1 else p.2)
    match readAll (labelAt e r index x) (((List.range 32).map fun i => first + i).drop got.labels.length) s with
    | .error (s1, y, l) => .error (s1, y, { got with labels := got.labels ++ l })
    | .ok (s1, l) => .ok (s1, { t with labels := some (got.labels ++ l) })
  else
    match readTileData s e r index x k got with
    | .error y => .error y
    | .ok (s1, d) => .ok (s1, { t with data := some d })

/-- Whether a FIFO has room for one more tile of a record (10 R261). -/
def fifoRoom (f : Fifo) (r : Shape) : Bool :=
  decide ((f.tiles.map StreamTile.room).sum + (if r.labels then 128 else 128 * r.elem.bits) ≤ fifoBytes)

/-- The stream feed that runs in a feeder, with how far it has come. -/
def runningStream (q : Feeder) : Option (Feed × Nat) :=
  match headFeed q, q.running with
  | some x, some k => if x.isStream then some (x, k) else none
  | _, _ => none

/-- Whether a feeder can deliver its next stream tile, or drop a feed that no one consumes. -/
def streamReady (s : State) (core n : Nat) : Bool :=
  match feeder? s core n with
  | none => false
  | some q =>
    match runningStream q with
    | none => false
    | some (x, k) =>
      partWorks s x.rights.part && resumeOf q.pause != .wait &&
      (feedOrphan s core x || (decide (k < feedTotal q x) &&
        (match fifo? s core (x.dest.extractLsb' 0 4).toNat with
         | none => false
         | some f => f.bound == some (x.group, x.handle) && fifoRoom f (parseShape q.shape))))

/-- STREAM_TILE_DELIVERY (R258): the next tile of the running stream feed enters its FIFO; at a page that is not present the feeder keeps its exact
position (10 R260). -/
def execStreamTileDelivery (core n : Nat) (s : State) : Host.Outcome State Fault Refusal :=
  .next (if streamReady s core n = false then s
  else match feeder? s core n with
    | none => s
    | some q =>
      match runningStream q, resumeOf q.pause with
      | none, _ => s
      | some (x, _), .fail a => failFeed s core n x errPage a
      | some (x, k), _ =>
        let s0 := modFeeder s core n fun q => { q with pause := none }
        if feedOrphan s core x then endFeed s0 core n x
        else
          let fifo := (x.dest.extractLsb' 0 4).toNat
          match streamTile s0 (feedCtx s0 core n x) (parseShape q.shape) q.index x k q.got with
          | .error (s1, err, far) => stopFeed (modFeeder s1 core n fun q => { q with got := far }) core n x err
          | .ok (s1, t) =>
            let s2 := modFifo s1 core fifo fun f => { f with tiles := f.tiles ++ [t] }
            let s3 := s2.modGroup x.group fun g =>
              { g with handles := modBy Handle.num g.handles x.handle fun h => { h with delivered := h.delivered + 1 } }
            let s4 := modFeeder s3 core n fun q => { q with running := some (k + 1), got := {} }
            finishStream (discardHead s4 core fifo) core fifo)

/-- The feeder whose stream feed a FIFO takes. -/
def feederOfFifo (s : State) (core fifo : Nat) : Option (Feeder × Feed) :=
  (s.feeders.filter fun q => q.core == core).findSome? fun q =>
    match runningStream q with
    | none => none
    | some (x, _) => if (x.dest.extractLsb' 0 4).toNat = fifo then some (q, x) else none

/-- Whether the head tile of a FIFO waits for its data, and it is decided whether that data is needed; gives the need. -/
def deferredNeed (s : State) (f : Fifo) : Option Bool :=
  match f.tiles with
  | [] => none
  | t :: _ =>
    if t.data.isSome ∨ t.failure.isSome = true then none
    else match consumerOf s f with
      | none => none
      | some (c, isA) =>
        if (tileFault s c isA t).isSome then none
        else if isA then neededA s c c.aTiles.length else neededB s c c.bTiles.length

/-- Whether a deferred data fetch can happen. -/
def deferredReady (s : State) (core fifo : Nat) : Bool :=
  partWorks s (partOfCore s core) &&
  match fifo? s core fifo with
  | none => false
  | some f => resumeOf f.pause != .wait && (deferredNeed s f).isSome && (feederOfFifo s core fifo).isSome

/-- Replaces the head tile of a FIFO. -/
def putHead (s : State) (core fifo : Nat) (t : StreamTile) : State :=
  modFifo s core fifo fun f => { f with tiles := t :: f.tiles.drop 1, pause := none, got := {} }

/-- A deferred fetch fails: the tile is the failed part of its stream, and the feed is complete (10 R259). -/
def failDeferred (s : State) (core fifo : Nat) (q : Feeder) (x : Feed) (status : Byte) (addr : Dword) : State :=
  endFeed (failHandle (putHead s core fifo (failTile status addr)) x status addr) core q.num x

/-- DEFERRED_DATA_FETCH (R370): the head tile of a labelled stream takes its data when its consumer needs it, and none when it does not. -/
def execDeferredDataFetch (core fifo : Nat) (s : State) : Host.Outcome State Fault Refusal :=
  .next (if deferredReady s core fifo = false then s
  else match fifo? s core fifo, feederOfFifo s core fifo with
    | some f, some (q, x) =>
      match f.tiles, deferredNeed s f, resumeOf f.pause with
      | _, _, .fail a => failDeferred s core fifo q x errPage a
      | t :: _, some need, _ =>
        if need = false then finishStream (putHead s core fifo { t with data := some [] }) core fifo
        else
          let e := feedCtx s core q.num x
          match readTileData s e (parseShape q.shape) q.index x t.index f.got with
          | .ok (s1, d) => finishStream (putHead s1 core fifo { t with data := some d }) core fifo
          | .error (s1, .fail st a, _) => failDeferred s1 core fifo q x st a
          | .error (s1, .page a k w, far) =>
            let p := engPause s1 e a k w
            modFifo p.1 core fifo fun f => { f with pause := some p.2, got := far }
      | _, _, _ => s
    | _, _ => s)

end Sys2Proof.Machine
end

