-- ==== Sys2Proof/Machine/CopyEvents.lean ====
section
/-!
DEFINITION. The copy engines: COPY, GATHER, SCATTER, SCATRED, TRANSPOSE, CONVERT, FILL, PAD and MIGRATE (10 R263 to R266, R273).
-/

namespace Sys2Proof.Machine

/-- A copy command, field by field (10 R263). -/
structure CopyWords where
  version  : Nat
  kind     : Nat
  flags    : Nat
  zero     : Bool
  src      : Nat
  dst      : Nat
  srow     : Nat
  scol     : Nat
  drow     : Nat
  dcol     : Nat
  h        : Nat
  w        : Nat
  complete : Nat
  deriving DecidableEq, Repr

/-- The command in 64 bytes. -/
def parseCopy (bs : List Byte) : CopyWords :=
  let n := fieldOf bs
  { version := n 0 2, kind := n 2 1, flags := n 3 1, zero := n 4 4 == 0 && n 0x38 8 == 0, src := n 8 8, dst := n 0x10 8, srow := n 0x18 4,
    scol := n 0x1C 4, drow := n 0x20 4, dcol := n 0x24 4, h := n 0x28 4, w := n 0x2C 4, complete := n 0x30 8 }

/-- The flags: sat, rnd, and the reduction op. -/
def CopyWords.sat (c : CopyWords) : Bool := c.flags % 2 == 1
def CopyWords.rnd (c : CopyWords) : BitVec 2 := BitVec.ofNat 2 (c.flags / 2)
def CopyWords.op (c : CopyWords) : Nat := c.flags / 8 % 8

/-- A well-formed command word for word; its records and windows are judged after it (10 R263, R264). -/
def CopyWords.ok (c : CopyWords) : Bool :=
  c.version == 1 && decide (1 ≤ c.kind) && decide (c.kind ≤ 9) && c.zero && decide (c.flags < 64) && decide (c.op ≤ 2) &&
  c.complete % 8 == 0 &&
  (if c.kind = 9 then
    decide (c.src < pow2 58) && decide (c.dst < pow2 58) && decide (c.srow ≤ 1) && decide (c.scol ≤ 1) && decide (1 ≤ c.drow) &&
    c.dcol == 0 && c.h == 0 && c.w == 0 && c.src % pow2 16 == 0 && c.dst % pow2 16 == 0
   else c.dst % 64 == 0 && c.src % 64 == 0 && (c.kind != 7 || c.src == 0))

/-- For whom a copy command works: its team's view, or memory for a method and for a team that is gone (10 R266, 11 R294, 17 R407). -/
def copyCtx (s : State) (p q : Nat) (c : CopyCmd) : EngCtx :=
  let g := c.group.bind s.group?
  let ordinary := g.any fun x => x.role == .ordinary
  let team := (g.map Group.team).getD 0
  let view := if ordinary then teamView s team c.quantum ((g.map s.gridWideId).getD 0) else {}
  { rights := c.rights, view := { view with past := ((copyQ? s p q).bind CopyQueue.past).getD [] }, eph := ordinary && ((c.grid.bind s.grid?).bind Grid.phase).isSome,
    req := requester 2 (copyEngine s p q), team := team, gid := (g.map s.gridWideId).getD 0, q := c.quantum,
    queue := .copy p q }

/-- The command at the head of a copy queue. -/
def headCopy (q : CopyQueue) : Option CopyCmd := match q.items with | .cmd c :: _ => some c | _ => none

/-- A command is complete: it leaves its queue, and its completion word is written (10 R264); that of an aborted one in memory, since its phase does
not commit (16 R392). -/
def endCopy (s : State) (p q : Nat) (c : CopyCmd) (status : Byte) : State :=
  let e := copyCtx s p q c
  let s1 := modCopyQ s p q fun x =>
    { x.finish c.seq with items := x.items.drop 1, running := none, src := [], dst := [], srcIdx := [], dstIdx := [], pause := none, wire := [], data := [], found := none, past := none }
  let s2 := wakeQueue (countEngine s1 e.queue 0 1) (fun g => g.part == p) q c.seq c.quantum c.grid
  completionWord s2 p (BitVec.ofNat 64 (parseCopy c.bytes).complete) (BitVec.ofNat 64 (c.seq.toNat + status.toNat * pow2 32)) c.rights
    c.seq (BitVec.ofNat 32 (256 + q)) (if e.eph && status != errAborted then some (e.team, e.q, e.gid) else none)

/-- Whether the running command has done all that it does, and waits for acknowledgements of its tier-3 requests (19 R426): it has put its
records away. -/
def CopyQueue.drained (q : CopyQueue) : Bool := q.running.isSome && q.dst.isEmpty && !q.wire.isEmpty

/-- A command has written its whole destination. -/
def settleCopy (s : State) (p q : Nat) (c : CopyCmd) : State :=
  if (copyQ? s p q).any fun x => !x.wire.isEmpty then
    modCopyQ s p q fun x => { x with running := some 0, src := [], dst := [], srcIdx := [], dstIdx := [], past := none, pause := none }
  else endCopy s p q c 0

/-- A command stops at an error: it completes with its status, or it pauses at a unit (10 R260, R264).  One that has found no room for its record, and
finds none again, is still in the same pause (08 R221; 20 R454). -/
def stopCopy (s : State) (p q : Nat) (c : CopyCmd) (err : EngErr) : State :=
  match err with
  | .fail st _ => endCopy s p q c st
  | .page a k w =>
    let again := ((copyQ? s p q).bind CopyQueue.pause).any fun x => x.noRoom == some a
    let r := engPause (if again then s else countEngine s (.copy p q) 2 1) (copyCtx s p q c) a k w
    modCopyQ r.1 p q fun x => { x with pause := some r.2 }

/-! ### The windows (10 R264) -/

/-- The rows and columns of the destination window. -/
def CopyWords.rows (c : CopyWords) : Nat := if c.kind = 5 then c.w else c.h
def CopyWords.cols (c : CopyWords) : Nat := if c.kind = 5 then c.h else c.w

/-- The source position of destination position (i, j). -/
def CopyWords.from (c : CopyWords) (i j : Nat) : Nat × Nat := if c.kind = 5 then (c.srow + j, c.scol + i) else (c.srow + i, c.scol + j)

/-- Whether the formats are those that a kind accepts (10 R264).  Equal formats have equal scale forms too (DESIGN CHOICE, notes/assumptions/106.md). -/
def kindAccepts (c : CopyWords) (a b : Shape) : Bool :=
  let equal := a.code == b.code && a.scale == b.scale
  match c.kind with
  | 2 => equal && a.mode == 1
  | 3 => equal && b.mode == 1
  | 4 => equal && b.mode == 1 && [0x01, 0x02, 0x03, 0x04, 0x14, 0x15].contains b.code.toNat
  | 6 => decide (b.scale ≤ 1)
  | 7 => true
  | _ => equal

/-- A transposing copy of blocks begins and ends at blocks (10 R264). -/
def transposeFits (c : CopyWords) (a : Shape) : Bool :=
  c.kind != 5 || a.scale != 1 || [c.srow, c.scol, c.drow, c.dcol, c.h, c.w].all fun x => x % 32 == 0

/-- The real positions of the destination window that a command writes, with the source position of each; PAD takes only those whose
source position is synthesised. -/
def copyPositions (c : CopyWords) (a b : Shape) (ai bi : List (Nat × Option Nat)) : List (List Nat × (Nat × Nat)) :=
  (List.range c.rows).flatMap fun i => (List.range c.cols).filterMap fun j =>
    match b.source bi (c.drow + i) (c.dcol + j) with
    | none => none
    | some k =>
      let p := c.from i j
      if c.kind = 8 ∧ (a.source ai p.1 p.2).isSome then none else some (k, p)

/-- Rows of the tensor that a record describes: in gather mode those of its indices below the bound B, by their canonical coordinates (04 R117;
10 R252). -/
def Shape.tensorRows (r : Shape) (bound : Nat) : Nat :=
  if r.mode = 1 then
    let last := fun (k : Nat) => if k = r.gdim then bound - 1 else r.e k - 1
    1 + last 1 + r.e 1 * (last 2 + r.e 2 * (last 3 + r.e 3 * last 4))
  else r.srcRows

/-- Elements of block k of an e8 form over that tensor (04 R108). -/
def blockSize (r : Shape) (bound k : Nat) : Nat :=
  if r.rank = 1 then min 1024 (r.e 0 - 1024 * k)
  else
    let wb := (r.e 0 + 31) / 32
    min 32 (r.tensorRows bound - 32 * (k / wb)) * min 32 (r.e 0 - 32 * (k % wb))

/-- An e8 destination is written whole by whole blocks (10 R264); that of a scatter has the rows that its indices can name (10 R252). -/
def wholeBlocks (b : Shape) (bound : Nat) (us : List (List (List Nat × (Nat × Nat)))) : Bool :=
  b.scale != 1 || us.all fun u => match u with
    | [] => true
    | (i, _) :: _ => ((u.map fun x => b.canon x.1).eraseDups).length == blockSize b bound (blockKey b i)

/-! ### The elements -/

/-- A value read from the source: none where it is synthesised, else its code and stored scale. -/
def readMany (e : EngCtx) (a : Shape) (ai : List (Nat × Option Nat)) :
    List (Nat × Nat) → State → Except (State × EngErr) (State × List (Option (Nat × Nat)))
  | [], s => .ok (s, [])
  | (i, j) :: rest, s =>
    match readPos s e a ai i j with
    | .error y => .error y
    | .ok (s1, v) =>
      match readMany e a ai rest s1 with
      | .error y => .error y
      | .ok (s2, l) => .ok (s2, v :: l)

/-- The number of a position of the source as it is read (10 R251). -/
def posNum (a : Shape) (v : Option (Nat × Nat)) : Num :=
  match v with
  | none => a.elem.value a.padRead
  | some (c, k) => Num.mul (a.elem.value c) (scaleNum a.scale k)

/-- A value rounded to the destination format (10 R264, 04 R92 to R98): between integers it wraps unless it saturates; one with a
scale form is rounded as a real number is, and saturates (DESIGN CHOICE, notes/assumptions/106.md). -/
def convertCode (c : CopyWords) (a b : Shape) (v : Option (Nat × Nat)) : Nat :=
  let x := posNum a v
  match a.elem, b.elem with
  | .int .., .int _ w => if a.scale = 0 ∧ c.sat = false then wrapNat w ((x.toInt 0).getD 0) else b.elem.encode c.rnd c.sat x
  | _, f => f.encode c.rnd c.sat x

/-- The scale byte of a converted block of an e8 destination: chosen from the block's real elements (04 R109, R110; 10 R251). -/
def convertScale (c : CopyWords) (a b : Shape) (vs : List (Option (Nat × Nat))) : Nat :=
  if vs.any Option.isSome then (quantBlock b.elem c.rnd ((vs.filter Option.isSome).map (posNum a))).1 else 127

/-- The code of a converted element under a scale byte. -/
def convertAt (c : CopyWords) (a b : Shape) (k : Nat) (v : Option (Nat × Nat)) : Nat :=
  if k = 255 then 0 else b.elem.encodeSat c.rnd ((posNum a v).scale (127 - (k : Int)))

/-- Whether a converted block takes its elements at zero: its real elements count (04 R109; 10 R251). -/
def convertsZero (a b : Shape) (vs : List (Option (Nat × Nat))) : Bool := b.elem.takesZero ((vs.filter Option.isSome).map (posNum a))

/-- The codes of a converted unit. -/
def convertUnit (c : CopyWords) (a b : Shape) (vs : List (Option (Nat × Nat))) : List (Option Nat × Nat) :=
  if b.scale = 1 then
    let k := convertScale c a b vs
    vs.map fun v => (some k, if convertsZero a b vs then 0 else convertAt c a b k v)
  else vs.map fun v => (none, convertCode c a b v)

/-- SCATRED's combination of an old code with a new one (10 R264, 12 R309). -/
def combineCode (op : Nat) (f : Elem) (old new : Nat) : Nat :=
  match f with
  | .float g =>
    match op with
    | 0 => g.encode 0 false (Num.add false (g.decode old) (g.decode new))
    | 1 => g.minCode old new
    | _ => g.maxCode old new
  | .int sg w =>
    let v := fun (x : Nat) => if sg then toSigned w x else (x : Int)
    match op with
    | 0 => (old + new) % pow2 w
    | 1 => if v old ≤ v new then old else new
    | _ => if v old ≤ v new then new else old
  | _ => new

/-- One element of a SCATRED, combined into memory as a RED does: one in a pool takes two accesses, of which the first reads it and the second,
with what that gave, writes it (12 R309, 19 R436). -/
def reduceElem (s : State) (e : EngCtx) (c : CopyWords) (b : Shape) (i : List Nat) (new : Nat) (found : Option Nat) :
    Except (State × EngErr) (State × Option Nat) :=
  match elemAddr s e b i with
  | .error y => .error y
  | .ok (s1, x, _) =>
    let n := b.elem.bits / 8
    match engLoc s1 e .update x n with
    | .error y => .error y
    | .ok (s2, l) =>
      let old := natOfBytes (readLocs s2 e.view l n)
      if l.pooled && found.isNone then .ok (s2, some old)
      else .ok (engPut s2 e l (bytesOfNat n (combineCode c.op b.elem (found.getD old) new)), none)

/-! ### e8 destinations (10 R251, R264) -/

/-- Whether the elements of an e8 destination are written one by one, as they are visited: those of a plane format are committed block by
block (08 R233, 10 R264). -/
def Shape.byPosition (b : Shape) : Bool := b.scale == 1 && !b.elem.isPlane

/-- The positions that a part of a command writes, as destination indices and source position; of an e8 destination written position by position,
whether it is the first visited of its block, and the source positions of the whole block for the first and where the format is unsigned. -/
abbrev CopyUnit := List (List Nat × (Nat × Nat)) × Bool × List (Nat × Nat)

/-- The parts in which a command writes its positions, in the order in which it visits them (10 R264). -/
def copyParts (b : Shape) (xs : List (List Nat × (Nat × Nat))) : List CopyUnit :=
  if b.byPosition then
    (xs.foldl (fun (acc : List CopyUnit × List Nat) x =>
      let k := blockKey b x.1
      let first := !(acc.2.contains k)
      (([x], first, if first || b.elem.unsigned then (xs.filter fun y => blockKey b y.1 == k).map Prod.snd else []) :: acc.1,
       if first then k :: acc.2 else acc.2)) ([], [])).1.reverse
  else (unitsOf b xs).map fun u => (u, false, [])

/-- The source positions of a block as its scale is settled: those that fail are left out, and fail when they are visited. -/
def lookAhead (e : EngCtx) (a : Shape) (ai : List (Nat × Option Nat)) :
    List (Nat × Nat) → State → Except (State × EngErr) (State × List (Option (Nat × Nat)))
  | [], s => .ok (s, [])
  | (i, j) :: rest, s =>
    match readPos s e a ai i j with
    | .error (s1, .page x k w) => .error (s1, .page x k w)
    | .error (_, .fail ..) => lookAhead e a ai rest s
    | .ok (s1, v) =>
      match lookAhead e a ai rest s1 with
      | .error y => .error y
      | .ok (s2, l) => .ok (s2, v :: l)

/-- The scale byte that a block of a destination takes: that of a conversion, or the one that its elements come with (10 R251, R264). -/
def blockScaleOf (s : State) (e : EngCtx) (c : CopyWords) (a b : Shape) (ai : List (Nat × Option Nat)) (mates : List (Nat × Nat)) :
    Except (State × EngErr) (State × Nat) :=
  if c.kind = 7 then .ok (s, 127)
  else match lookAhead e a ai mates s with
    | .error y => .error y
    | .ok (s1, vs) =>
      if c.kind = 6 then .ok (s1, convertScale c a b vs)
      else
        let m := mergeBlock s1 b.elem (vs.map fun v => match v with | some (x, k) => (some k, x) | none => (none, a.padRead))
        .ok (m.2.2, m.1)

/-- Whether the block of a converted position takes its elements at zero; the source is only looked at. -/
def blockZero (s : State) (e : EngCtx) (a b : Shape) (ai : List (Nat × Option Nat)) (mates : List (Nat × Nat)) : Bool :=
  b.elem.unsigned && match lookAhead e a ai mates s with | .ok (_, vs) => convertsZero a b vs | .error _ => false

/-- One position of an e8 destination: the block's scale byte where it is the first of its block, and its code under that byte; a code that
comes with another scale, which no rule covers, is a free value. -/
def copyPosition (s : State) (e : EngCtx) (c : CopyWords) (a b : Shape) (ai : List (Nat × Option Nat)) (i : List Nat) (p : Nat × Nat)
    (block : Bool × List (Nat × Nat)) : Except (State × EngErr) State :=
  match scaleAddr b (b.canon i) with
  | none => .ok s
  | some (sa, _) =>
    let scaled : Except (State × EngErr) (State × Nat × List Piece) :=
      if block.1 = false then
        match engLoc s e .store sa 1 with
        | .error y => .error y
        | .ok (s1, l) => .ok (s1, natOfBytes (readLocs s1 e.view l 1), [])
      else
        match blockScaleOf s e c a b ai block.2 with
        | .error y => .error y
        | .ok (s1, k) =>
          match engPiece s1 e sa [BitVec.ofNat 8 k] [] with
          | .error y => .error y
          | .ok (s2, x) => .ok (s2, k, [x])
    match scaled with
    | .error y => .error y
    | .ok (s1, k, scalePiece) =>
      let value : Except (State × EngErr) (State × Option (Nat × Nat)) := if c.kind = 7 then .ok (s1, none) else readPos s1 e a ai p.1 p.2
      match value with
      | .error y => .error y
      | .ok (s2, v) =>
        let (code, s3) : Nat × State :=
          if c.kind = 6 then (if blockZero s e a b ai block.2 then 0 else convertAt c a b k v, s2)
          else match v with
            | some (x, k') => if k' = k then (x, s2) else (Config.openCode s2.free % pow2 b.elem.bits, { s2 with free := s2.free + 1 })
            | none =>
              let pad := if c.kind = 7 then b.padRead else a.padRead
              (if k = 127 then pad else if k = 255 then 0 else b.elem.encodeSat 0 ((b.elem.value pad).scale (127 - (k : Int))), s2)
        match elemPieces s3 e b i code with
        | .error y => .error y
        | .ok (s4, ps) => .ok ((ps ++ scalePiece).foldl (fun s x => engApply s e x) s4)

/-- One unit of a command that does not combine: its reads, then its writes.  A TRANSPOSE keeps every nibble of a plane element, so its read is not
rounded (18 R420). -/
def copyUnit (s : State) (e : EngCtx) (c : CopyWords) (a0 b : Shape) (ai : List (Nat × Option Nat)) (x : CopyUnit) :
    Except (State × EngErr) State :=
  let u := x.1
  let a := if c.kind = 5 then { a0 with rne := false } else a0
  if b.byPosition then
    match u with
    | [] => .ok s
    | (i, p) :: _ => copyPosition s e c a b ai i p x.2
  else if c.kind = 7 then writeUnit s e b (u.map fun x => (x.1, none, b.padRead))
  else
    match readMany e a ai (u.map Prod.snd) s with
    | .error y => .error y
    | .ok (s1, vs) =>
      match c.kind with
      | 6 => writeUnit s1 e b (List.zip (u.map Prod.fst) (convertUnit c a b vs))
      | _ => writeUnit s1 e b (List.zip (u.map Prod.fst) (vs.map fun v => match v with
          | some (x, k) => (some k, x)
          | none => (none, a.padRead)))

/-- One unit of a SCATRED: its element is read, and combined into memory. -/
def reduceUnit (s : State) (e : EngCtx) (c : CopyWords) (a b : Shape) (ai : List (Nat × Option Nat)) (u : CopyUnit) (found : Option Nat) :
    Except (State × EngErr) (State × Option Nat) :=
  match u.1 with
  | [] => .ok (s, none)
  | (i, p) :: _ =>
    match readPos s e a ai p.1 p.2 with
    | .error y => .error y
    | .ok (s1, v) => reduceElem s1 e c b i (match v with | some x => x.1 | none => a.padRead) found

/-- How a run of units ends: with them all done, at a unit that does not complete, or once the first of the two accesses of an element in a pool
has read it. -/
inductive CopyHalt where
  | done
  | stopped (err : EngErr)
  | found (old : Nat)

/-- The units of a command from the k-th on, the first with what an access of the pool has found for it; gives the number it came to. -/
def copyUnits (e : EngCtx) (c : CopyWords) (a b : Shape) (ai : List (Nat × Option Nat)) :
    List CopyUnit → Option Nat → Nat → State → State × Nat × CopyHalt
  | [], _, k, s => (s, k, .done)
  | u :: rest, found, k, s =>
    match if c.kind = 4 then reduceUnit s e c a b ai u found else (copyUnit s e c a b ai u).map fun s1 => (s1, none) with
    | .error (s1, err) => (s1, k, .stopped err)
    | .ok (s1, some old) => (s1, k, .found old)
    | .ok (s1, none) => copyUnits e c a b ai rest none (k + 1) s1

/-! ### A command (10 R264) -/

/-- The records and gather indices of a command, read and checked; all of this comes before any data (10 R252). -/
def copyRecords (s : State) (e : EngCtx) (c : CopyWords) :
    Except (State × EngErr) (State × List Byte × List Byte × List (Nat × Option Nat) × List (Nat × Option Nat)) :=
  match engRecord s e c.dst with
  | .error y => .error y
  | .ok (s1, db) =>
    let source : Except (State × EngErr) (State × List Byte) := if c.kind = 7 then .ok (s1, db) else engRecord s1 e c.src
    match source with
    | .error y => .error y
    | .ok (s2, sb) =>
      let a := parseShape sb
      let b := parseShape db
      if (shapeOk a && shapeOk b && (c.kind == 7 || a.holds c.srow c.scol c.h c.w) && b.holds c.drow c.dcol c.rows c.cols &&
          kindAccepts c a b && transposeFits c a) = false then .error (s2, .fail errCmd 0)
      else
        let ix : Except (State × EngErr) (State × List (Nat × Option Nat)) :=
          if c.kind = 7 then .ok (s2, []) else (windowIndices s2 e a c.srow c.h).map fun y => (y.1, y.2.2)
        match ix with
        | .error y => .error y
        | .ok (s3, ai) =>
          match windowIndices s3 e b c.drow c.rows with
          | .error y => .error y
          | .ok (s4, bound, bi) =>
            if wholeBlocks b bound (unitsOf b (copyPositions c a b ai bi)) then .ok (s4, sb, db, ai, bi) else .error (s4, .fail errCmd 0)

/-- The bits of a destination between the boundaries at which a command may pause: 64 KiB of it (10 R266). -/
def pauseBits : Nat := 8 * pow2 16

/-- How many units come before the next such boundary, `done` bits having been written. -/
def unitsToBoundary (bits : Nat) : Nat → List CopyUnit → Nat
  | _, [] => 0
  | done, u :: rest =>
    let n := done + bits * u.1.length
    if done / pauseBits < n / pauseBits then 1 else 1 + unitsToBoundary bits n rest

/-- A command goes on from its k-th unit to the next boundary of its destination, where it can pause (10 R266; DEDUCED,
notes/assumptions/87.md). -/
def runCopy (s : State) (p q : Nat) (c : CopyCmd) (sb db : List Byte) (ai bi : List (Nat × Option Nat)) (k : Nat) (found : Option Nat) : State :=
  let w := parseCopy c.bytes
  let a := parseShape sb
  let b := parseShape db
  let parts := copyParts b (copyPositions w a b ai bi)
  let left := parts.drop k
  let part := left.take (unitsToBoundary b.elem.bits (b.elem.bits * ((parts.take k).map fun u => u.1.length).sum) left)
  let at_ := fun (s : State) (k1 : Nat) => modCopyQ s p q fun x => { x with
    running := some k1, src := sb, dst := db, srcIdx := ai, dstIdx := bi, pause := if k1 = k then x.pause else none }
  match copyUnits (copyCtx s p q c) w a b ai part found k s with
  | (s1, k1, .done) => if parts.length ≤ k1 then settleCopy s1 p q c else at_ s1 k1
  | (s1, k1, .stopped err) => stopCopy (at_ s1 k1) p q c err
  | (s1, k1, .found old) => modCopyQ (at_ s1 k1) p q fun x => { x with found := some old }

/-- The key of a physical address in tier 0 or 1 (10 R263). -/
def physKey (tier a : Nat) : Nat := if tier = 1 then poolKey a else a

/-- Copies 64 KiB from one location key to another, an error of the words it replaces removed (08 R224). -/
def copyChunk (s : State) (src dst : Nat) : State :=
  let n := pow2 16
  let cells := s.mem.filter fun x => decide (src ≤ x.1) && decide (x.1 < src + n)
  let rest := s.mem.filter fun x => decide (x.1 < dst) || decide (dst + n ≤ x.1)
  let s1 : State := { s with
    mem := cells.foldl (fun m x => sset 0 m (dst + (x.1 - src)) x.2) rest
    memErr := s.memErr.filter fun w => decide (16 * w < dst) || decide (dst + n ≤ 16 * w) }
  notify s1 0 (.mem dst) n

/-- The k-th 64 KiB of a MIGRATE (10 R264): an error in the source, or memory that is out of reach, ends it.  In a running phase it reads the
view of its group and writes for its team (17 R401, R407).  Whose memory quarters the addresses lie in is not looked at, for an engine's access of
tier 0 in general (DESIGN CHOICE, notes/assumptions/106.md). -/
def migrateUnit (c : CopyWords) (part : Nat) (e : EngCtx) (k : Nat) (s : State) : State × Option Byte :=
  let src := physKey c.srow (c.src + pow2 16 * k)
  let dst := physKey c.scol (c.dst + pow2 16 * k)
  match s.memErr.find? fun w => decide (src ≤ 16 * w) && decide (16 * w < src + pow2 16) with
  | some w => (logAccess s part (.mem (16 * w)) (BitVec.ofNat 64 (c.src + pow2 16 * k + (16 * w - src))) 0 e.req, some errMem)
  | none =>
    match [src, dst].find? fun x => !(reachable s part (.mem x)) with
    | some x => (logAccess s part (.mem x) (BitVec.ofNat 64 (x % pow2 58)) 0 e.req, some errMem)
    | none => (if e.eph then engPut s e (.mem dst) (readLocs s e.view (.mem src) (pow2 16)) else copyChunk s src dst, none)

/-- MIGRATE goes on by one unit (10 R264, R266): privileged. -/
def runMigrate (s : State) (p q : Nat) (c : CopyCmd) (k : Nat) : State :=
  let w := parseCopy c.bytes
  let e := copyCtx s p q c
  if c.rights.sys = false then endCopy s p q c errPriv
  else if e.eph = true ∧ (w.srow = 1 ∨ w.scol = 1) then endCopy s p q c errAccess
  else match migrateUnit w p e k s with
    | (s1, some st) => endCopy s1 p q c st
    | (s1, none) =>
      let s2 := if e.eph then s1 else countEngine s1 e.queue 1 (pow2 16)
      if w.drow ≤ k + 1 then endCopy s2 p q c 0 else modCopyQ s2 p q fun x => { x with running := some (k + 1) }

/-- Whether a command at the head of a copy queue is held back: it has not begun, and an atomic that its group released before it is still to be
performed (10 R266; 13 R326). -/
def CopyQueue.heldBack (s : State) (x : CopyQueue) (c : CopyCmd) : Bool := x.running.isNone && c.group.any fun g => atomicsBefore s g c.quantum

/-- Whether a copy queue's head is a copy command of one of some kinds that can begin or go on.  When a swap begins, a SCATRED between the two
accesses of an element in a pool goes on to its next boundary (10 R266; 16 R389; 19 R436). -/
def copyReady (s : State) (p q : Nat) (kinds : Nat → Bool) : Bool :=
  match copyQ? s p q with
  | none => false
  | some x => (partWorks s p || x.found.isSome) && match headCopy x with
    | none => false
    | some c => !c.coll && !(x.heldBack s c) && kinds (parseCopy c.bytes).kind && resumeOf x.pause != .wait && !x.drained

/-- A copy queue whose head goes on: its pause is over, unless its record has found no room and may find none again; and what an access of a pool
has found is taken along. -/
def CopyQueue.resumed (x : CopyQueue) : CopyQueue := { x with pause := x.pause.filter fun z => z.noRoom.isSome, found := none }

/-- What a queue keeps of the commit units of planes while its command runs: a command that reads a plane format sees every unit as it was when it
began (08 R233). -/
def CopyQueue.keeps (x : CopyQueue) (planes : Bool) : CopyQueue := { x with past := if planes then some [] else none }

/-- A copy engine performs the command at the head of a queue, from where it stands. -/
def copyStep (s : State) (p q : Nat) (kinds : Nat → Bool) : State :=
  if copyReady s p q kinds = false then s
  else match copyQ? s p q with
    | none => s
    | some x =>
      match headCopy x, resumeOf x.pause with
      | none, _ => s
      | some c, .fail _ => endCopy s p q c errPage
      | some c, _ =>
        let w := parseCopy c.bytes
        let s0 := modCopyQ s p q CopyQueue.resumed
        if w.ok = false then endCopy s0 p q c errCmd
        else if w.kind = 9 then runMigrate s0 p q c (x.running.getD 0)
        else match x.running with
          | some k => if x.dst.isEmpty then endCopy s0 p q c 0 else runCopy s0 p q c x.src x.dst x.srcIdx x.dstIdx k x.found
          | none =>
            match copyRecords s0 (copyCtx s0 p q c) w with
            | .error (s1, err) => stopCopy s1 p q c err
            | .ok (s1, sb, db, ai, bi) =>
              runCopy (modCopyQ s1 p q fun y => y.keeps (w.kind != 7 && (parseShape sb).elem.isPlane)) p q c sb db ai bi 0 none

/-- COPY (R264); a command of a reserved kind, which fails, is taken here too. -/
def execCopy (p q : Nat) (s : State) : Host.Outcome State Fault Refusal :=
  .next (copyStep s p q fun k => k == 1 || k == 0 || decide (9 < k))

/-- GATHER (R264). -/
def execGather (p q : Nat) (s : State) : Host.Outcome State Fault Refusal := .next (copyStep s p q fun k => k == 2)

/-- SCATTER (R264). -/
def execScatter (p q : Nat) (s : State) : Host.Outcome State Fault Refusal := .next (copyStep s p q fun k => k == 3)

/-- SCATRED (R264). -/
def execScatred (p q : Nat) (s : State) : Host.Outcome State Fault Refusal := .next (copyStep s p q fun k => k == 4)

/-- TRANSPOSE (R264). -/
def execTranspose (p q : Nat) (s : State) : Host.Outcome State Fault Refusal := .next (copyStep s p q fun k => k == 5)

/-- CONVERT (R264). -/
def execConvert (p q : Nat) (s : State) : Host.Outcome State Fault Refusal := .next (copyStep s p q fun k => k == 6)

/-- FILL_COMMAND (R264): the FILL of a copy queue. -/
def execFillCommand (p q : Nat) (s : State) : Host.Outcome State Fault Refusal := .next (copyStep s p q fun k => k == 7)

/-- PAD (R264). -/
def execPad (p q : Nat) (s : State) : Host.Outcome State Fault Refusal := .next (copyStep s p q fun k => k == 8)

/-- MIGRATE (R264, R273). -/
def execMigrate (p q : Nat) (s : State) : Host.Outcome State Fault Refusal := .next (copyStep s p q fun k => k == 9)

end Sys2Proof.Machine
end

