-- ==== Sys2Proof/Machine/Collective.lean ====
section
/-!
DEFINITION. Collectives: ALLGATHER, REDSCAT, ALLRED, BCAST and their timeout (19 R438 to R442).  The other members are outside the
machine: what their devices have issued is an input of the event.
-/

namespace Sys2Proof.Machine

/-- A collective command, field by field (19 R438). -/
structure CollWords where
  version  : Nat
  kind     : Nat
  flags    : Nat
  count    : Nat
  self     : Nat
  table    : Nat
  send     : Nat
  recv     : Nat
  block    : Nat
  root     : Nat
  id       : Nat
  zero     : Bool
  complete : Nat
  deriving DecidableEq, Repr

/-- The command in 64 bytes. -/
def parseColl (bs : List Byte) : CollWords :=
  let n := fieldOf bs
  { version := n 0 2, kind := n 2 1, flags := n 3 1, count := n 4 2, self := n 6 2, table := n 8 8, send := n 0x10 8, recv := n 0x18 8,
    block := n 0x20 8, root := n 0x28 2, id := n 0x2A 2, zero := n 0x2C 4 == 0 && n 0x38 8 == 0, complete := n 0x30 8 }

/-- Type and op of a collective. -/
def CollWords.type (c : CollWords) : Nat := c.flags % 16
def CollWords.op (c : CollWords) : Nat := c.flags / 16 % 4

/-- Whether a kind reduces. -/
def CollWords.reduces (c : CollWords) : Bool := c.kind == 2 || c.kind == 3

/-- The checks of a command that need no translation (19 R438, R440). -/
def collOk (s : State) (c : CollWords) : Bool :=
  c.version == 1 && decide (1 ≤ c.kind) && decide (c.kind ≤ 4) && decide (c.flags < 64) && decide (c.op ≤ 2) &&
  (if c.reduces then decide (1 ≤ c.type) && decide (c.type ≤ 6) else c.type == 0) &&
  decide (2 ≤ c.count) && decide (c.count ≤ 1024) && decide (c.self < c.count) && c.block % 64 == 0 && decide (64 ≤ c.block) &&
  (if c.kind = 4 then decide (c.root < c.count) else c.root == 0) && c.zero && c.complete % 8 == 0 &&
  decide (c.table + 2 * c.count ≤ Config.tier0Bytes) && ((List.range c.count).all fun i => decide (natOfBytes (readKeys s (c.table + 2 * i) 2) < pow2 12)) &&
  natOfBytes (readKeys s (c.table + 2 * c.self) 2) == s.dev.fabricId.toNat

/-- Bytes of the send buffer that this member reads, of the whole send buffer, and of its receive buffer (19 R439). -/
def CollWords.sendBytes (c : CollWords) : Nat :=
  if c.kind = 2 then c.count * c.block else if c.kind = 4 ∧ c.root ≠ c.self then 0 else c.block
def CollWords.sendRange (c : CollWords) : Nat := if c.kind = 2 then c.count * c.block else c.block
def CollWords.recvBytes (c : CollWords) : Nat := if c.kind = 1 then c.count * c.block else c.block

/-- Bytes of each other member's send buffer that the collective uses. -/
def CollWords.dataBytes (c : CollWords) (i : Nat) : Nat :=
  if c.kind = 2 then c.count * c.block else if c.kind = 4 ∧ c.root ≠ i then 0 else c.block

/-- The pieces of a range, none across a 64-byte boundary: offset and length; `fuel` bounds their number. -/
def pieces64 : Nat → Nat → Nat → Nat → List (Nat × Nat)
  | 0, _, _, _ => []
  | fuel + 1, a, off, n =>
    if n = 0 then []
    else
      let k := min n (64 - (a + off) % 64)
      (off, k) :: pieces64 fuel a (off + k) (n - k)

/-- The pieces of a buffer. -/
def bufferPieces (a n : Nat) : List (Nat × Nat) := pieces64 (n / 64 + 2) a 0 n

/-- Whether every page of a buffer lies in tier 0 of this device (19 R440). -/
def checkBuffer (e : EngCtx) (write : Bool) (a : Nat) : List (Nat × Nat) → State → Except (State × EngErr) State
  | [], s => .ok s
  | (off, _) :: rest, s =>
    match engAddr ((a + off : Nat) : Int) with
    | none => .error (s, .fail errCmd 0)
    | some va =>
      match translate s e.rights none (if write then .store else .load) va 0 with
      | .loc _ t _ => if t = 0 then checkBuffer e write a rest s else .error (s, .fail errCmd va)
      | .access => .error (s, .fail errAccess va)
      | .absent k => .error (s, .page va k write)

/-- Reads a buffer. -/
def readBuffer (e : EngCtx) (a : Nat) : List (Nat × Nat) → State → Except (State × EngErr) (State × List Byte)
  | [], s => .ok (s, [])
  | (off, n) :: rest, s =>
    match engRead s e ((a + off : Nat) : Int) n with
    | .error y => .error y
    | .ok (s1, x) =>
      match readBuffer e a rest s1 with
      | .error y => .error y
      | .ok (s2, bs) => .ok (s2, bytesOfNat n x ++ bs)

/-- Writes the pieces of a receive buffer from the k-th on. -/
def writeBuffer (e : EngCtx) (a : Nat) (data : List Byte) : List (Nat × Nat) → Nat → State → State × Nat × Option EngErr
  | [], k, s => (s, k, none)
  | (off, n) :: rest, k, s =>
    match engWrite s e ((a + off : Nat) : Int) n (natOfBytes ((data.drop off).take n)) with
    | .error (s1, err) => (s1, k, some err)
    | .ok s1 => writeBuffer e a data rest (k + 1) s1

/-- The element format of a type, and its bytes (19 R438). -/
def collElem (t : Nat) : Elem :=
  match t with
  | 1 => .int true 32
  | 2 => .int false 32
  | 3 => .float fmtF32
  | 4 => .float fmtF64
  | 5 => .float fmtF16
  | _ => .float fmtBf16

/-- Two buffers combined element by element (19 R439). -/
def combineBytes (f : Elem) (op : Nat) : Nat → List Byte → List Byte → List Byte
  | 0, _, _ => []
  | n + 1, x, y =>
    let w := f.bits / 8
    bytesOfNat w (combineCode op f (fieldOf x 0 w) (fieldOf y 0 w)) ++ combineBytes f op n (x.drop w) (y.drop w)

/-- What this member receives, from every member's data in ascending index (19 R439). -/
def collResult (c : CollWords) (vs : List (List Byte)) : List Byte :=
  let f := collElem c.type
  let block := fun (v : List Byte) => if c.kind = 2 then (v.drop (c.self * c.block)).take c.block else v
  match c.kind with
  | 1 => vs.flatten
  | 4 => vs.getD c.root []
  | _ => match vs with
    | [] => []
    | v :: rest => rest.foldl (fun acc x => combineBytes f c.op (c.block / (f.bits / 8)) acc (block x)) (block v)

/-- The entries of a command's group table. -/
def CollWords.group (c : CollWords) (s : State) : List (BitVec 16) :=
  (List.range c.count).map fun i => BitVec.ofNat 16 (natOfBytes (readKeys s (c.table + 2 * i) 2))

/-- The commands of other devices that belong to the same collective: their ids and the contents of their group tables are equal, as far as both
tables go, since members may disagree in G (19 R440). -/
def sameColl (s : State) (c : CollWords) (others : List Member) : List Member :=
  others.filter fun m => m.id.toNat == c.id && (List.zip (c.group s) m.group).all fun x => x.1 == x.2

/-- The others are the members but this one, each with its data (19 R440). -/
def membersCome (c : CollWords) (others : List Member) : Bool :=
  others.length == c.count - 1 &&
  (List.range c.count).all fun i => i == c.self || others.any fun m => m.index == i && m.data.length == c.dataBytes i

/-- Whether all agree in kind, flags, G, B and root (19 R440). -/
def membersAgree (c : CollWords) (others : List Member) : Bool :=
  others.all fun m => m.kind.toNat == c.kind && m.flags.toNat == c.flags && m.count.toNat == c.count && m.block.toNat == c.block &&
    m.root.toNat == c.root

/-- The others have all come, whatever data they bring. -/
def membersThere (c : CollWords) (others : List Member) : Bool :=
  others.length == c.count - 1 && (List.range c.count).all fun i => i == c.self || others.any fun m => m.index == i

/-- A collective sends the data of this member as flits of 128 bytes on virtual lane 2 of a port of its partition; which port is open (19 R425,
R442; DESIGN CHOICE, notes/assumptions/97.md). -/
def sendColl (s : State) (p q bytes : Nat) : State :=
  let ups := s.dev.ports.filter fun x => x.up && x.owner == some p
  match ups[Config.collectivePort s.free % Nat.max 1 ups.length]? with
  | none => s
  | some x => (List.range ((bytes + 127) / 128)).foldl (fun s _ =>
      match s.dev.ports.find? fun y => y.num == x.num with
      | none => s
      | some y => modCopyQ (queueFlit s y 2) p q fun z => { z with data := z.data ++ [(y.num, laneSeq y.nextSeq 2)] })
      { s with free := s.free + 1 }

/-- A collective that has written its receive buffer is complete once its data has been acknowledged (19 R426). -/
def settleColl (s : State) (p q : Nat) (c : CopyCmd) (k : Nat) : State :=
  if (copyQ? s p q).any fun x => !x.data.isEmpty then modCopyQ s p q fun x => { x with running := some k, pause := none } else endCopy s p q c 0

/-- Whether a collective has written its receive buffer and its data has been acknowledged. -/
def collDone (c : CopyCmd) (x : CopyQueue) : Bool :=
  let w := parseColl c.bytes
  c.coll && x.data.isEmpty && x.pause.isNone && x.running.any fun k => decide ((bufferPieces w.recv w.recvBytes).length ≤ k)

/-- The collectives whose last data has been acknowledged are complete. -/
def finishColls (s : State) : State :=
  (s.copies.filterMap fun x => match headCopy x with | some c => if collDone c x then some (x, c) else none | none => none).foldl
    (fun s y => endCopy s y.1.part y.1.num y.2 0) s

/-- A collective performed, once every member has come: its send buffer is read and its data sent, and its receive buffer is written from where
it stands. -/
def runColl (s : State) (p q : Nat) (c : CopyCmd) (w : CollWords) (k : Option Nat) (others : List Member) : State :=
  let e := copyCtx s p q c
  let recv := bufferPieces w.recv w.recvBytes
  if membersAgree w others = false then endCopy s p q c errMatch
  else if membersCome w others = false then s
  else
    match readBuffer e w.send (bufferPieces w.send w.sendBytes) s with
    | .error (s1, err) => stopCopy s1 p q c err
    | .ok (s1, mine) =>
      let vs := (List.range w.count).map fun i =>
        if i = w.self then mine else ((others.find? fun m => m.index == i).map Member.data).getD []
      let s1 := if k.isNone then sendColl s1 p q mine.length else s1
      match writeBuffer e w.recv (collResult w vs) (recv.drop (k.getD 0)) (k.getD 0) s1 with
      | (s2, k1, none) => settleColl s2 p q c k1
      | (s2, k1, some err) => stopCopy (modCopyQ s2 p q fun x => { x with running := some k1 }) p q c err

/-- The collective at the head of a copy queue that can begin or go on. -/
def headColl (s : State) (p q : Nat) : Option (CopyCmd × CopyQueue) :=
  if partWorks s p = false then none
  else match copyQ? s p q with
    | none => none
    | some x => match headCopy x with
      | none => none
      | some c => if c.coll = true ∧ resumeOf x.pause ≠ .wait ∧ x.heldBack s c = false then some (c, x) else none

/-- Whether a partition has a port of its own that is up: without one a collective is unreachable (19 R426, R437). -/
def hasPort (s : State) (p : Nat) : Bool := s.dev.ports.any fun q => q.up && q.owner == some p

/-- The checks of a collective before it sends anything: a malformed command, a buffer outside tier 0 of this device, and no port to carry it
(19 R437, R440). -/
def checkColl (s : State) (p q : Nat) (c : CopyCmd) (w : CollWords) : Except (State × EngErr) State :=
  let e := copyCtx s p q c
  if collOk s w = false then .error (s, .fail errCmd 0)
  else
    match checkBuffer e false w.send (bufferPieces w.send w.sendRange) s with
    | .error x => .error x
    | .ok s1 =>
      match checkBuffer e true w.recv (bufferPieces w.recv w.recvBytes) s1 with
      | .error x => .error x
      | .ok s2 => if hasPort s2 p = false then .error (s2, .fail errMem 0) else .ok s2

/-- A collective of one of some kinds is performed once every member has come; one that fails its checks ends at once (19 R440). -/
def collStep (s : State) (p q : Nat) (kinds : Nat → Bool) (others : List Member) : State :=
  match headColl s p q with
  | none => s
  | some (c, x) =>
    let w := parseColl c.bytes
    if kinds w.kind = false then s
    else match resumeOf x.pause with
      | .fail _ => endCopy s p q c errPage
      | _ =>
        match checkColl s p q c w with
        | .error (s1, err) => stopCopy s1 p q c err
        | .ok s1 =>
          let ms := sameColl s1 w others
          if membersThere w ms = false then s
          else runColl (modCopyQ s1 p q CopyQueue.resumed) p q c w x.running ms

/-- ALLGATHER (R439); a command of a reserved kind, which fails, is taken here too. -/
def execAllgather (p q : Nat) (others : List Member) (s : State) : Host.Outcome State Fault Refusal :=
  .next (collStep s p q (fun k => k == 1 || k == 0 || decide (4 < k)) others)

/-- REDSCAT (R439). -/
def execRedscat (p q : Nat) (others : List Member) (s : State) : Host.Outcome State Fault Refusal :=
  .next (collStep s p q (fun k => k == 2) others)

/-- ALLRED (R439). -/
def execAllred (p q : Nat) (others : List Member) (s : State) : Host.Outcome State Fault Refusal :=
  .next (collStep s p q (fun k => k == 3) others)

/-- BCAST (R439). -/
def execBcast (p q : Nat) (others : List Member) (s : State) : Host.Outcome State Fault Refusal :=
  .next (collStep s p q (fun k => k == 4) others)

/-- COLLECTIVE_TIMEOUT (R440): some member has not come, and the command that has been issued ends with ERRTIMEOUT. -/
def execCollectiveTimeout (p q : Nat) (s : State) : Host.Outcome State Fault Refusal :=
  .next (match headColl s p q with
    | none => s
    | some (c, x) =>
      if x.running.isSome || resumeOf x.pause != .go then s
      else match checkColl s p q c (parseColl c.bytes) with
        | .ok s1 => endCopy s1 p q c errTimeout
        | .error _ => s)

end Sys2Proof.Machine
end

