-- ==== Sys2Proof/Machine/Control.lean ====
section
/-!
DEFINITION. Control: branches, regions, YCHK, EXIT, WBASE, and the trap instructions (06 R161 to R172, 16 R383 to R386).
-/

namespace Sys2Proof.Machine

/-- A group that is asked to stop: the swap tier or a forced eviction (06 R171, 16 R389, 05 R150). -/
def stopPending (s : State) (g : Group) : Bool :=
  g.role == .ordinary &&
  ((s.part? g.part).any (fun p => p.tier == .swap || p.tier == .force) || (s.team? g.team).any fun t => t.chosen.isSome)

/-- NOP (R172). -/
def execNop (s : State) : Host.Outcome State Fault Refusal := runUnit s (fun _ => {}) fun c => .done c.s

/-! ### Branches (06 R161 to R164) -/

/-- The target of an 18-bit word offset from a unit's first word (03 R73). -/
def branchTarget (pc : Dword) (o : BitVec 18) : Dword := pc + (o.signExtend 64 <<< 2)

/-- The lanes of the fragment that a condition takes (06 R161). -/
def takenLanes (c : Ctx) (p : BitVec 4) (n : BitVec 1) : Word :=
  c.f.mask &&& (c.g.getP p.toNat ^^^ (if n = 1 then 0xFFFFFFFF#32 else 0))

/-- Clears the pending join of the fragment that issues. -/
def clearJoin (c : Ctx) (g : Group) : Group := g.modFrag c.f.id fun f => { f with join := none }

/-- Writes the link of a CALL: the address of the next unit, low word (06 R161). -/
def link (c : Ctx) (call : Bool) (g : Group) : Group := if call then g.setS 63 (c.next.extractLsb' 0 32) else g

/-- A branch that all lanes take or none: the link is written when it is taken. -/
def branchAll (c : Ctx) (call go : Bool) (g : Group) (target : Dword) : UnitRes :=
  if go then .jump (c.s.setGroup (link c call g)) target else .done (c.s.setGroup g)

/-- BRA and CALL (06 R161): the condition's mode decides. -/
def branchBody (call : Bool) (p : BitVec 4) (n : BitVec 1) (m : BitVec 2) (o : BitVec 18) (c : Ctx) : UnitRes :=
  let tk := takenLanes c p n
  let target := branchTarget c.f.pc o
  match m.toNat with
  | 1 => branchAll c call (tk == c.f.mask) c.g target
  | 2 => branchAll c call (tk != 0) c.g target
  | 3 => branchAll c call (tk == c.f.mask) c.g target
  | _ =>
    if p = 0 then branchAll c call (n == 0) c.g target
    else if tk = c.f.mask ∨ tk = 0 then branchAll c call (tk == c.f.mask) (clearJoin c c.g) target
    else .fork (c.s.setGroup (link c call c.g)) tk target

/-- The detection of BRA and CALL: an asserted uniform branch whose lanes disagree traps UNIF (06 R161, 03 R85). -/
def branchSpec (call : Bool) (p : BitVec 4) (n : BitVec 1) (m : BitVec 2) (c : Ctx) : UnitSpec :=
  let tk := takenLanes c p n
  { ss := if call then [63] else [], unif := m == 1 && tk != 0 && tk != c.f.mask }

/-- BRA (R161). -/
def execBra (p : BitVec 4) (n : BitVec 1) (m : BitVec 2) (o : BitVec 18) (s : State) : Host.Outcome State Fault Refusal :=
  runUnit s (branchSpec false p n m) (branchBody false p n m o)

/-- CALL (R161). -/
def execCall (p : BitVec 4) (n : BitVec 1) (m : BitVec 2) (o : BitVec 18) (s : State) : Host.Outcome State Fault Refusal :=
  runUnit s (branchSpec true p n m) (branchBody true p n m o)

/-- A jump of the whole fragment; a target that is no multiple of 4 traps MISALIGN (06 R162). -/
def jumpTo (c : Ctx) (a : Dword) : UnitRes := if a.toNat % 4 = 0 then .jump c.s a else .trap causeMisalign c.f.mask a

/-- BRX (R162). -/
def execBrx (a : BitVec 5) (s : State) : Host.Outcome State Fault Refusal :=
  runUnit s (fun _ => { ss := pairRegs a }) fun c => jumpTo c (c.g.getPair (pairOf a))

/-- RET (R162): within the 4 GiB of its own address. -/
def execRet (a : BitVec 6) (s : State) : Host.Outcome State Fault Refusal :=
  runUnit s (fun _ => { ss := [a.toNat] }) fun c => jumpTo c (c.f.pc.extractLsb' 32 32 ++ c.g.getS a.toNat)

/-- JSET (R164). -/
def execJset (o : BitVec 18) (s : State) : Host.Outcome State Fault Refusal :=
  runUnit s (fun _ => {}) fun c => doneG c (c.g.modFrag c.f.id fun f => { f with join := some (branchTarget c.f.pc o) })

/-- DBRA (R163). -/
def execDbra (d : BitVec 6) (i : BitVec 18) (s : State) : Host.Outcome State Fault Refusal :=
  runUnit s (fun _ => { ss := [d.toNat] }) fun c =>
    let x := c.g.getS d.toNat - 1
    let s1 := c.s.setGroup (c.g.setS d.toNat x)
    if x = 0 then .done s1 else .jump s1 (branchTarget c.f.pc i)

/-! ### EXIT, YCHK, WBASE (06 R169, R171, R172; 03 R63) -/

/-- One more retired unit of a group that leaves by its unit (17 R403). -/
def countLast (c : Ctx) (s : State) : State :=
  countIssue (s.modGroup c.g.id fun g => { g with logical := g.logical.map (countUnit 0 true c.f.pc c.f.id) }) c.g

/-- The fragment that leaves, for a trap that the release of the last quantum may still raise: it has issued EXIT (17 R401). -/
def leaverOf (c : Ctx) : Frag := { c.f with pc := c.next, last := c.f.pc, outs := [], held := false, counted := false }

/-- EXIT (R169): the whole group; ILLEGAL in method code and in a handler (11 R292, 16 R386).  In Ephemeris mode it ends the last quantum, and
the group leaves with its release (17 R403). -/
def execExit (s : State) : Host.Outcome State Fault Refusal :=
  runUnit s (fun _ => { noMethod := true, noHandler := true, path := true }) fun c =>
    .gone ((exitGroup (countLast c c.s) c.g.id).modGroup c.g.id fun g =>
      { g with logical := g.logical.map fun l => { l with leaver := some (leaverOf c) } })

/-- YCHK (R171): a yield-free path ends, and a pending stop takes the fragment at its next unit; not in a handler or a method
(16 R386, 11 R292). -/
def execYchk (s : State) : Host.Outcome State Fault Refusal :=
  runUnit s (fun _ => { path := true }) fun c =>
    if stopPending c.s c.g ∧ c.g.handler = none then doneG c (c.g.modFrag c.f.id fun f => { f with stopped := true }) else .done c.s

/-- WBASE (R63): the bound is judged at step 5. -/
def execWbase (i : BitVec 11) (s : State) : Host.Outcome State Fault Refusal :=
  runUnit s (fun c => { regx := decide (8 * c.g.granules ≤ 8 * i.toNat) }) fun c => doneG c { c.g with window := 8 * i.toNat }

/-! ### RGN (06 R166) -/

/-- The vector registers that a granule mask names. -/
def rgnRegs (c : Ctx) (m : BitVec 16) : List Nat :=
  ((List.range 16).filter fun j => m.getLsbD j).flatMap fun j => (List.range 8).map fun k => c.g.window + 8 * j + k

/-- The stage block after RGN: the fragment's lanes of the granules and, for `sp`, the scalars and its lanes of p1 to p15. -/
def stageRegs (c : Ctx) (m : BitVec 16) (sp : Bool) (st : Stage) : Stage :=
  let ls := lanesOf c.f.mask
  let v := (rgnRegs c m).foldl (fun v r => ls.foldl (fun v i => sset 0 v (32 * r + i) (c.g.getV r i)) v) st.v
  if sp then
    { v := v
      s := (List.range 64).foldl (fun x n => sset 0 x n (c.g.getS n)) st.s
      p := (List.range 15).foldl (fun x n => sset 0 x (n + 1)
        ((sget 0 x (n + 1) &&& ~~~c.f.mask) ||| (c.g.getP (n + 1) &&& c.f.mask))) st.p }
  else { st with v := v }

/-- How many fragments a group has: one that a handler runs for counts once, as it stands or as the handler has split it (06 R166, 16 R380). -/
def Group.fragCount (g : Group) : Nat :=
  match g.handler with
  | none => g.frags.length
  | some h => g.running.length + (h.held.length - 1)

/-- RGN (06 R165, R166): a region begins at the unit after it, with the registers staged; kind 0b01 in a group of several fragments
traps ILLEGAL. -/
def rgnBody (m : BitVec 16) (sp : Bool) (c : Ctx) : UnitRes :=
  if sp ∧ 1 < c.g.fragCount then .trap causeIllegal c.f.mask 0
  else
    let g1 : Group := { c.g with stage := stageRegs c m sp c.g.stage }
    let g2 := newRegion g1 c.f c.next
    doneG c (g2.modFrag c.f.id fun f => { f with region := { f.region with sp := sp, mask := m } })

/-- What RGN touches: the staged registers, and for kind 0b01 every scalar. -/
def rgnSpec (m : BitVec 16) (sp : Bool) (c : Ctx) : UnitSpec :=
  { vs := rgnRegs c m, ss := if sp then List.range 64 else [] }

/-- RGN of kind 0b00 (R166). -/
def execRgn (m : BitVec 16) (s : State) : Host.Outcome State Fault Refusal := runUnit s (rgnSpec m false) (rgnBody m false)

/-- RGN of kind 0b01 (R166). -/
def execRgnSp (m : BitVec 16) (s : State) : Host.Outcome State Fault Refusal := runUnit s (rgnSpec m true) (rgnBody m true)

/-! ### TRAP, BRK, TRET, TRAPINFO (16 R383 to R386) -/

/-- TRAP (R384): SWTRAP after its effect, with the code as the address. -/
def execTrap (k : BitVec 18) (s : State) : Host.Outcome State Fault Refusal :=
  runUnit s (fun _ => { path := true }) fun c => .post c.s causeSwtrap c.f.mask (k.setWidth 64)

/-- BRK (R384). -/
def execBrk (k : BitVec 18) (s : State) : Host.Outcome State Fault Refusal :=
  runUnit s (fun _ => { path := true }) fun c => .post c.s causeBrk c.f.mask (k.setWidth 64)

/-- The unit of TRET counts, its handler ends, pending traps are taken, and a deferred stop follows (16 R381, R385, R389). -/
def returnFrom (c : Ctx) (h : Handler) (m : ReturnMode) : UnitRes :=
  let s1 := leaveHandler c.s c.g h m
  let s2 := s1.modGroup c.g.id fun g => { g with logical := g.logical.map (countUnit (quantumOf c.s c.g) false c.f.pc c.f.id) }
  let s3 := takePending s2 c.g.id
  .gone (countIssue (s3.modGroup c.g.id fun g =>
    if g.handler = none ∧ g.trapWait = none ∧ stopPending s3 g then { g with frags := g.frags.map fun f => { f with stopped := true } } else g) c.g)

/-- TRET (16 R385): ILLEGAL outside a handler; a context fault when the fragment's mask is not the handler's at entry. -/
def tretBody (m : Ctx → Except (Byte × Dword) ReturnMode) (c : Ctx) : UnitRes :=
  match c.g.handler with
  | none => .trap causeIllegal c.f.mask 0
  | some h =>
    if c.f.mask ≠ h.mask then .gone (contextFault c.s c.g.id causeIllegal c.f.pc 0)
    else if !(landReady c.g).allLanded then .wait
    else match m c with
      | .error (k, a) => .gone (contextFault c.s c.g.id k c.f.pc a)
      | .ok r =>
        returnFrom { c with g := landReady c.g } h r

/-- TRET mode 0 (R385). -/
def execTret (s : State) : Host.Outcome State Fault Refusal := 
  runUnit s (fun _ => { path := true }) (tretBody fun _ => .ok .resume)

/-- TRET mode 1 (R385). -/
def execTretRegion (s : State) : Host.Outcome State Fault Refusal := 
  runUnit s (fun _ => { path := true }) (tretBody fun _ => .ok .region)

/-- TRET mode 2 (R385): a target that is no multiple of 4 is a context fault with cause MISALIGN. -/
def execTretAddr (a : BitVec 5) (s : State) : Host.Outcome State Fault Refusal :=
  runUnit s (fun _ => { ss := pairRegs a, path := true }) (tretBody fun c =>
    let x := c.g.getPair (pairOf a)
    if x.toNat % 4 = 0 then .ok (.addr x) else .error (causeMisalign, x))

/-- The four words of a block of the trap record (16 R383). -/
def trapBlock (t : TrapRecord) (b : Nat) : List Word :=
  let lo := fun (x : Dword) => x.extractLsb' 0 32
  let hi := fun (x : Dword) => x.extractLsb' 32 32
  match b with
  | 0 => [t.cause, t.mask, lo t.addr, hi t.addr]
  | 1 => [lo t.pc, hi t.pc, lo t.resume, hi t.resume]
  | _ => [lo t.regionEntry, hi t.regionEntry, t.regionCount, t.flags]

/-- Writes a scalar quad. -/
def setQuad (g : Group) (d : Nat) (ws : List Word) : Group :=
  (((g.setS d (ws.getD 0 0)).setS (d + 1) (ws.getD 1 0)).setS (d + 2) (ws.getD 2 0)).setS (d + 3) (ws.getD 3 0)

/-- TRAPINFO (R383). -/
def execTrapinfo (d : BitVec 4) (b : BitVec 2) (s : State) : Host.Outcome State Fault Refusal :=
  runUnit s (fun _ => { ss := quadRegs d }) fun c => doneG c (setQuad c.g (quadOf d) (trapBlock c.g.trap b.toNat))

/-- UNDEFINED_ENCODING (03 R84): ILLEGAL, without effect; for a fragment that issues. -/
def execUndefinedEncoding (s : State) : Host.Outcome State Fault Refusal :=
  match ctx? s with
  | none => .next s
  | some c => .next (unitTrap c c.s causeIllegal c.f.mask 0)

/-! ### Predicates (06 R180) -/

/-- A predicate result of the active lanes from other predicates (06 R180). -/
def predOp (px : Option Modw) (d : BitVec 4) (ss : List Nat) (x : Ctx → Word) (s : State) : Host.Outcome State Fault Refusal :=
  runUnit s (fun _ => { words := unitWords px, ss := ss }) fun c => doneG c (c.g.setP d.toNat (active c (mw px)) (x c))

/-- PAND (R180). -/
def execPand (px : Option Modw) (d a b : BitVec 4) (s : State) : Host.Outcome State Fault Refusal :=
  predOp px d [] (fun c => c.g.getP a.toNat &&& c.g.getP b.toNat) s

/-- POR (R180). -/
def execPor (px : Option Modw) (d a b : BitVec 4) (s : State) : Host.Outcome State Fault Refusal :=
  predOp px d [] (fun c => c.g.getP a.toNat ||| c.g.getP b.toNat) s

/-- PXOR (R180). -/
def execPxor (px : Option Modw) (d a b : BitVec 4) (s : State) : Host.Outcome State Fault Refusal :=
  predOp px d [] (fun c => c.g.getP a.toNat ^^^ c.g.getP b.toNat) s

/-- PANDN (R180). -/
def execPandn (px : Option Modw) (d a b : BitVec 4) (s : State) : Host.Outcome State Fault Refusal :=
  predOp px d [] (fun c => c.g.getP a.toNat &&& ~~~(c.g.getP b.toNat)) s

/-- PORN (R180). -/
def execPorn (px : Option Modw) (d a b : BitVec 4) (s : State) : Host.Outcome State Fault Refusal :=
  predOp px d [] (fun c => c.g.getP a.toNat ||| ~~~(c.g.getP b.toNat)) s

/-- PNOT (R180). -/
def execPnot (px : Option Modw) (d a : BitVec 4) (s : State) : Host.Outcome State Fault Refusal :=
  predOp px d [] (fun c => ~~~(c.g.getP a.toNat)) s

/-- PFROMS (R180). -/
def execPfroms (px : Option Modw) (d : BitVec 4) (a : BitVec 6) (s : State) : Host.Outcome State Fault Refusal :=
  predOp px d [a.toNat] (fun c => c.g.getS a.toNat) s

/-- PTOS (R180): all 32 lanes. -/
def execPtos (d : BitVec 6) (a : BitVec 4) (s : State) : Host.Outcome State Fault Refusal :=
  runUnit s (fun _ => { ss := [d.toNat] }) fun c => doneG c (c.g.setS d.toNat (c.g.getP a.toNat))

/-- PPOPC (R180). -/
def execPpopc (d : BitVec 6) (a : BitVec 4) (s : State) : Host.Outcome State Fault Refusal :=
  runUnit s (fun _ => { ss := [d.toNat] }) fun c =>
    doneG c (c.g.setS d.toNat (BitVec.ofNat 32 (popCount (c.g.getP a.toNat &&& c.f.mask))))

/-- PANY (R180): judged over the fragment mask. -/
def execPany (px : Option Modw) (d a : BitVec 4) (s : State) : Host.Outcome State Fault Refusal :=
  predOp px d [] (fun c => if c.g.getP a.toNat &&& c.f.mask = 0 then 0 else 0xFFFFFFFF#32) s

/-- PALL (R180): judged over the fragment mask. -/
def execPall (px : Option Modw) (d a : BitVec 4) (s : State) : Host.Outcome State Fault Refusal :=
  predOp px d [] (fun c => if c.g.getP a.toNat &&& c.f.mask = c.f.mask then 0xFFFFFFFF#32 else 0) s

/-- PFIRST (R180): the lowest active lane where p[a] is true. -/
def execPfirst (px : Option Modw) (d a : BitVec 4) (s : State) : Host.Outcome State Fault Refusal :=
  predOp px d [] (fun c => maskOf ((lanesOf (active c (mw px) &&& c.g.getP a.toNat)).take 1)) s

end Sys2Proof.Machine
end

