-- ==== Sys2Proof/Decode.lean ====
section
/-!
DEFINITION. The decoder, from the bytes of an instruction unit to an instruction or a named rejection (03 R70 to R84), and
after it the encoder, from the same encoding tables.
-/

namespace Sys2Proof

/-- The fields of an instruction word: op [31:25], d [24:18], a [17:11], b [10:4], f [3:0] (03 R71).  The other formats name
parts of the same bits. -/
structure Fields where
  op : BitVec 7
  d  : BitVec 7
  a  : BitVec 7
  b  : BitVec 7
  f  : BitVec 4
  deriving DecidableEq, Repr

/-- Cuts a word into its fields (03 R71). -/
def Fields.split (w : Word) : Fields :=
  ⟨w.extractLsb' 25 7, w.extractLsb' 18 7, w.extractLsb' 11 7, w.extractLsb' 4 7, w.extractLsb' 0 4⟩

/-- Joins the fields into a word (03 R71). -/
def Fields.join (x : Fields) : Word := x.op ++ x.d ++ x.a ++ x.b ++ x.f

/-- The prefix words of a unit: at most one MODW or MXW, and at most one IMMX payload (03 R75). -/
structure Prefixes where
  modw : Option Modw := none
  mxw  : Option Mxw := none
  immx : Option (BitVec 25) := none
  deriving DecidableEq, Repr

/-- The MODW payload read field by field (03 R76). -/
def Modw.ofPayload (p : BitVec 25) : Modw :=
  { guard := p.extractLsb' 21 4, gneg := p.getLsbD 20, sat := p.getLsbD 19, nega := p.getLsbD 18, negb := p.getLsbD 17,
    absa := p.getLsbD 16, absb := p.getLsbD 15, psc := p.extractLsb' 10 5, str := p.extractLsb' 6 4,
    scope := p.extractLsb' 3 3, rnd := p.extractLsb' 1 2, clamp := p.getLsbD 0 }

/-- The MXW payload read field by field; a set reserved bit [9:0] makes none (03 R78). -/
def Mxw.ofPayload (p : BitVec 25) : Option Mxw :=
  if p.extractLsb' 0 10 = 0 then
    some { nega := p.getLsbD 24, negb := p.getLsbD 23, nacc := p.getLsbD 22, rel := p.extractLsb' 19 3,
           bias := p.getLsbD 18, act := p.getLsbD 17, atab := p.extractLsb' 15 2, rq := p.getLsbD 14,
           guard := p.extractLsb' 10 4 }
  else none

/-- The immediate of a format I word under the prefixes of its unit (03 R74, R79). -/
def Prefixes.imm11 (px : Prefixes) (i : BitVec 11) : Imm11 :=
  match px.immx with
  | none => .short i
  | some p => .long (p.extractLsb' 0 21 ++ i)

/-- The immediate of a format L word under the prefixes of its unit (03 R74, R79). -/
def Prefixes.imm18 (px : Prefixes) (i : BitVec 18) : Imm18 :=
  match px.immx with
  | none => .short i
  | some p => .long (p.extractLsb' 0 14 ++ i)

/-- Goes on when the condition holds. -/
def must (c : Bool) : Option Unit := if c then some () else none

/-- A scalar register field: bit 6 zero (03 R61). -/
def reg? (x : BitVec 7) : Option (BitVec 6) := if x.extractLsb' 6 1 = 0 then some (x.extractLsb' 0 6) else none

/-- A scalar pair field: an even scalar number (03 R61). -/
def pair? (x : BitVec 7) : Option (BitVec 5) :=
  if x.extractLsb' 6 1 = 0 ∧ x.extractLsb' 0 1 = 0 then some (x.extractLsb' 1 5) else none

/-- A scalar quad field: a scalar number that is a multiple of 4 (05, the encoding table). -/
def quad? (x : BitVec 7) : Option (BitVec 4) :=
  if x.extractLsb' 6 1 = 0 ∧ x.extractLsb' 0 2 = 0 then some (x.extractLsb' 2 4) else none

/-- A predicate, tile handle or index field: bits [6:4] zero (03 R61). -/
def pred? (x : BitVec 7) : Option (BitVec 4) := if x.extractLsb' 4 3 = 0 then some (x.extractLsb' 0 4) else none

/-- The imm11 of a format I word (03 R71). -/
def imm11 (x : Fields) : BitVec 11 := x.b ++ x.f

/-- The imm18 of a format L or B word (03 R71). -/
def imm18 (x : Fields) : BitVec 18 := x.a ++ x.b ++ x.f

/-- Decodes the control, scalar and system-register opcodes 0x00 to 0x1E (06, 16): the operand fields of each entry, none for a word no entry defines (R61, R84). -/
def decodeControl (px : Prefixes) (x : Fields) : Option Instr :=
  match x.op.toNat with
  | 0x00 => do must (x.d == 0#7); must (x.a == 0#7); must (x.b == 0#7); must (x.f == 0#4); some .nop
  | 0x01 => some (.bra (x.d.extractLsb' 3 4) (x.d.extractLsb' 2 1) (x.d.extractLsb' 0 2) (imm18 x))
  | 0x02 => do must (x.d == 0#7); let a ← pair? x.a; must (x.b == 0#7); must (x.f == 0#4); some (.brx a)
  | 0x03 => some (.call (x.d.extractLsb' 3 4) (x.d.extractLsb' 2 1) (x.d.extractLsb' 0 2) (imm18 x))
  | 0x04 => do must (x.d == 0#7); let a ← reg? x.a; must (x.b == 0#7); must (x.f == 0#4); some (.ret a)
  | 0x05 => do must (x.d == 0#7); some (.jset (imm18 x))
  | 0x06 => do let d ← reg? x.d; some (.dbra d (imm18 x))
  | 0x07 => do must (x.d == 0#7); must (x.a == 0#7); must (x.b == 0#7); must (x.f == 0#4); some .exit
  | 0x08 => do must (x.d == 0#7); must (x.a == 0#7); must (x.b == 0#7); must (x.f == 0#4); some .ychk
  | 0x09 =>
      (do must ((imm18 x).extractLsb' 16 2 == 0#2); must (x.d == 0#7); some (.rgn ((imm18 x).extractLsb' 0 16))) <|>
      (do must ((imm18 x).extractLsb' 16 2 == 1#2); must (x.d == 0#7); some (.rgnSp ((imm18 x).extractLsb' 0 16)))
  | 0x0A => do must (x.d == 0#7); some (.trap (imm18 x))
  | 0x0B => match x.f.toNat with
    | 0 => do must (x.d == 0#7); must (x.a == 0#7); must (x.b == 0#7); some .tret
    | 1 => do must (x.d == 0#7); must (x.a == 0#7); must (x.b == 0#7); some .tretRegion
    | 2 => do must (x.d == 0#7); let a ← pair? x.a; must (x.b == 0#7); some (.tretAddr a)
    | _ => none
  | 0x0C => do must (x.d == 0#7); some (.brk (imm18 x))
  | 0x0D => do must (x.d == 0#7); must (x.a == 0#7); some (.wbase (imm11 x))
  | 0x10 => match x.f.toNat with
    | 0 => do let d ← reg? x.d; let a ← reg? x.a; let b ← reg? x.b; some (.sadd d a b)
    | 1 => do let d ← reg? x.d; let a ← reg? x.a; let b ← reg? x.b; some (.ssub d a b)
    | 2 => do let d ← reg? x.d; let a ← reg? x.a; let b ← reg? x.b; some (.smul d a b)
    | 3 => do let d ← reg? x.d; let a ← reg? x.a; let b ← reg? x.b; some (.smulhu d a b)
    | 4 => do let d ← reg? x.d; let a ← reg? x.a; let b ← reg? x.b; some (.smulhs d a b)
    | 5 => do let d ← reg? x.d; let a ← reg? x.a; let b ← reg? x.b; some (.sand d a b)
    | 6 => do let d ← reg? x.d; let a ← reg? x.a; let b ← reg? x.b; some (.sor d a b)
    | 7 => do let d ← reg? x.d; let a ← reg? x.a; let b ← reg? x.b; some (.sxor d a b)
    | 8 => do let d ← reg? x.d; let a ← reg? x.a; let b ← reg? x.b; some (.sshl d a b)
    | 9 => do let d ← reg? x.d; let a ← reg? x.a; let b ← reg? x.b; some (.sshr d a b)
    | 10 => do let d ← reg? x.d; let a ← reg? x.a; let b ← reg? x.b; some (.ssra d a b)
    | 11 => do let d ← reg? x.d; let a ← reg? x.a; let b ← reg? x.b; some (.smin d a b)
    | 12 => do let d ← reg? x.d; let a ← reg? x.a; let b ← reg? x.b; some (.smax d a b)
    | 13 => do let d ← reg? x.d; let a ← reg? x.a; let b ← reg? x.b; some (.sminu d a b)
    | 14 => do let d ← reg? x.d; let a ← reg? x.a; let b ← reg? x.b; some (.smaxu d a b)
    | 15 => do let d ← reg? x.d; let a ← reg? x.a; let b ← reg? x.b; some (.sandn d a b)
    | _ => none
  | 0x11 => do let d ← reg? x.d; let a ← reg? x.a; some (.saddi d a (px.imm11 (imm11 x)))
  | 0x12 => do let d ← reg? x.d; let a ← reg? x.a; some (.sandi d a (px.imm11 (imm11 x)))
  | 0x13 => do let d ← reg? x.d; let a ← reg? x.a; some (.sori d a (px.imm11 (imm11 x)))
  | 0x14 => do let d ← reg? x.d; let a ← reg? x.a; some (.sxori d a (px.imm11 (imm11 x)))
  | 0x15 => do
      must ((imm11 x).extractLsb' 5 6 == 0#6)
      let d ← reg? x.d
      let a ← reg? x.a
      some (.sshli d a ((imm11 x).extractLsb' 0 5))
  | 0x16 => do
      must ((imm11 x).extractLsb' 5 6 == 0#6)
      let d ← reg? x.d
      let a ← reg? x.a
      some (.sshri d a ((imm11 x).extractLsb' 0 5))
  | 0x17 => do
      must ((imm11 x).extractLsb' 5 6 == 0#6)
      let d ← reg? x.d
      let a ← reg? x.a
      some (.ssrai d a ((imm11 x).extractLsb' 0 5))
  | 0x18 => do let d ← reg? x.d; some (.sli d (px.imm18 (imm18 x)))
  | 0x19 => match x.f.toNat with
    | 0 => do let d ← reg? x.d; let a ← reg? x.a; must (x.b == 0#7); some (.sclz d a)
    | 1 => do let d ← reg? x.d; let a ← reg? x.a; must (x.b == 0#7); some (.spopc d a)
    | 2 => do let d ← reg? x.d; let a ← reg? x.a; must (x.b == 0#7); some (.sbrev d a)
    | 3 => do let d ← reg? x.d; let a ← reg? x.a; must (x.b == 0#7); some (.ssxb d a)
    | 4 => do let d ← reg? x.d; let a ← reg? x.a; must (x.b == 0#7); some (.ssxh d a)
    | 5 => do let d ← reg? x.d; let a ← reg? x.a; must (x.b == 0#7); some (.smov d a)
    | _ => none
  | 0x1A => do let d ← pred? x.d; let a ← reg? x.a; let b ← reg? x.b; some (.ssetp d a b x.f)
  | 0x1B => do let d ← reg? x.d; must (x.a == 0#7); some (.srsys d (imm11 x))
  | 0x1C => do must (x.d == 0#7); let a ← reg? x.a; some (.swsys a (imm11 x))
  | 0x1D => do let d ← reg? x.d; let b ← reg? x.b; must (x.f == 0#4); some (.smovv d x.a b)
  | 0x1E => do let d ← reg? x.d; let a ← reg? x.a; let b ← reg? x.b; some (.ssel d a b x.f)
  | _ => none

/-- Decodes the vector integer opcodes 0x20 to 0x2F (07): the operand fields of each entry, none for a word no entry defines (R61, R84). -/
def decodeVectorInt (px : Prefixes) (x : Fields) : Option Instr :=
  match x.op.toNat with
  | 0x20 => match x.f.toNat with
    | 0 => some (.vadd px.modw x.d x.a x.b)
    | 1 => some (.vsub px.modw x.d x.a x.b)
    | 2 => some (.vmul px.modw x.d x.a x.b)
    | 3 => some (.vmulhu px.modw x.d x.a x.b)
    | 4 => some (.vmulhs px.modw x.d x.a x.b)
    | 5 => some (.vand px.modw x.d x.a x.b)
    | 6 => some (.vor px.modw x.d x.a x.b)
    | 7 => some (.vxor px.modw x.d x.a x.b)
    | 8 => some (.vshl px.modw x.d x.a x.b)
    | 9 => some (.vshr px.modw x.d x.a x.b)
    | 10 => some (.vsra px.modw x.d x.a x.b)
    | 11 => some (.vmin px.modw x.d x.a x.b)
    | 12 => some (.vmax px.modw x.d x.a x.b)
    | 13 => some (.vminu px.modw x.d x.a x.b)
    | 14 => some (.vmaxu px.modw x.d x.a x.b)
    | 15 => some (.vandn px.modw x.d x.a x.b)
    | _ => none
  | 0x21 => match x.f.toNat with
    | 0 => some (.vaddh2 px.modw x.d x.a x.b)
    | 1 => some (.vsubh2 px.modw x.d x.a x.b)
    | 2 => some (.vmulh2 px.modw x.d x.a x.b)
    | 3 => some (.vminh2 px.modw x.d x.a x.b)
    | 4 => some (.vmaxh2 px.modw x.d x.a x.b)
    | 5 => some (.vminuh2 px.modw x.d x.a x.b)
    | 6 => some (.vmaxuh2 px.modw x.d x.a x.b)
    | _ => none
  | 0x22 => do must (x.f.extractLsb' 1 3 == 0#3); some (.vmad px.modw x.d x.a x.b (x.f.extractLsb' 0 1))
  | 0x23 => some (.vaddi px.modw x.d x.a (px.imm11 (imm11 x)))
  | 0x24 => some (.vandi px.modw x.d x.a (px.imm11 (imm11 x)))
  | 0x25 => do must ((imm11 x).extractLsb' 5 6 == 0#6); some (.vshli px.modw x.d x.a ((imm11 x).extractLsb' 0 5))
  | 0x26 => do must ((imm11 x).extractLsb' 5 6 == 0#6); some (.vshri px.modw x.d x.a ((imm11 x).extractLsb' 0 5))
  | 0x27 => do must ((imm11 x).extractLsb' 5 6 == 0#6); some (.vsrai px.modw x.d x.a ((imm11 x).extractLsb' 0 5))
  | 0x28 => match x.f.toNat with
    | 0 => do must (x.b == 0#7); some (.vclz px.modw x.d x.a)
    | 1 => do must (x.b == 0#7); some (.vpopc px.modw x.d x.a)
    | 2 => do must (x.b == 0#7); some (.vbrev px.modw x.d x.a)
    | 3 => do must (x.b == 0#7); some (.vmov px.modw x.d x.a)
    | 4 => do must (x.b == 0#7); some (.vnot px.modw x.d x.a)
    | 5 => do must (x.b == 0#7); some (.viabs px.modw x.d x.a)
    | 6 => do must (x.b == 0#7); some (.vineg px.modw x.d x.a)
    | _ => none
  | 0x29 => match x.f.toNat with
    | 0 => some (.vbfeu px.modw x.d x.a x.b)
    | 1 => some (.vbfes px.modw x.d x.a x.b)
    | _ => none
  | 0x2A => do must (x.f == 0#4); some (.vbfi px.modw x.d x.a x.b)
  | 0x2B => match x.f.toNat with
    | 0 => some (.vpermb px.modw x.d x.a x.b)
    | 1 => some (.vpermbN4 px.modw x.d x.a x.b)
    | _ => none
  | 0x2C => do let d ← pred? x.d; some (.vsetp px.modw d x.a x.b x.f)
  | 0x2D => some (.vsel px.modw x.d x.a x.b x.f)
  | 0x2E => match x.f.toNat with
    | 0 => do let a ← reg? x.a; must (x.b == 0#7); some (.vmovs px.modw x.d a)
    | 1 => do let a ← reg? x.a; let b ← reg? x.b; some (.vins px.modw x.d a b)
    | 2 => do must (x.a == 0#7); must (x.b == 0#7); some (.vlane px.modw x.d)
    | _ => none
  | 0x2F => match x.f.toNat with
    | 0 => do let a ← reg? x.a; must (x.b == 0#7); some (.vmovxr px.modw x.d a)
    | 1 => do must (x.d == 0#7); let a ← reg? x.a; some (.vmovxw px.modw a x.b)
    | _ => none
  | _ => none

/-- Decodes the vector float, narrow, cross-lane and predicate opcodes 0x30 to 0x40 (06, 07, 09): the operand fields of each entry, none for a word no entry defines (R61, R84). -/
def decodeVectorFloat (px : Prefixes) (x : Fields) : Option Instr :=
  match x.op.toNat with
  | 0x30 =>
      (do must (x.f.extractLsb' 0 3 == 0#3); some (.vfadd px.modw x.d x.a x.b (x.f.extractLsb' 3 1))) <|>
      (do must (x.f.extractLsb' 0 3 == 1#3); some (.vfsub px.modw x.d x.a x.b (x.f.extractLsb' 3 1))) <|>
      (do must (x.f.extractLsb' 0 3 == 2#3); some (.vfmul px.modw x.d x.a x.b (x.f.extractLsb' 3 1))) <|>
      (do must (x.f.extractLsb' 0 3 == 3#3); some (.vfmin px.modw x.d x.a x.b (x.f.extractLsb' 3 1))) <|>
      (do must (x.f.extractLsb' 0 3 == 4#3); some (.vfmax px.modw x.d x.a x.b (x.f.extractLsb' 3 1))) <|>
      (do must (x.f.extractLsb' 0 3 == 5#3); some (.vfminn px.modw x.d x.a x.b (x.f.extractLsb' 3 1))) <|>
      (do must (x.f.extractLsb' 0 3 == 6#3); some (.vfmaxn px.modw x.d x.a x.b (x.f.extractLsb' 3 1))) <|>
      (do must (x.f.extractLsb' 0 3 == 7#3); some (.vfsgn px.modw x.d x.a x.b (x.f.extractLsb' 3 1)))
  | 0x31 => do must (x.f.extractLsb' 1 3 == 0#3); some (.vfma px.modw x.d x.a x.b (x.f.extractLsb' 0 1))
  | 0x32 => do let d ← pred? x.d; some (.vfsetp px.modw d x.a x.b (x.f.extractLsb' 3 1) (x.f.extractLsb' 0 3))
  | 0x33 =>
      (do must (x.b == 0#7); some (.vfrcp px.modw x.d x.a x.f)) <|>
      (do must (x.b == 1#7); some (.vfrsq px.modw x.d x.a x.f)) <|>
      (do must (x.b == 2#7); some (.vfsqrt px.modw x.d x.a x.f)) <|>
      (do must (x.b == 3#7); some (.vfexp2 px.modw x.d x.a x.f)) <|>
      (do must (x.b == 4#7); some (.vflog2 px.modw x.d x.a x.f)) <|>
      (do must (x.b == 5#7); some (.vfsin px.modw x.d x.a x.f)) <|>
      (do must (x.b == 6#7); some (.vfcos px.modw x.d x.a x.f)) <|>
      (do must (x.b == 7#7); some (.vftanh px.modw x.d x.a x.f))
  | 0x34 => do must (x.f == 0#4); some (.vcvt px.modw x.d x.a x.b)
  | 0x35 => do
      must (x.b == 0#7)
      must (x.f.extractLsb' 2 2 == 0#2)
      some (.vfclass px.modw x.d x.a (x.f.extractLsb' 0 2))
  | 0x36 =>
      (do must (x.f.extractLsb' 0 3 == 0#3); some (.vhadd px.modw x.d x.a x.b (x.f.extractLsb' 3 1))) <|>
      (do must (x.f.extractLsb' 0 3 == 1#3); some (.vhsub px.modw x.d x.a x.b (x.f.extractLsb' 3 1))) <|>
      (do must (x.f.extractLsb' 0 3 == 2#3); some (.vhmul px.modw x.d x.a x.b (x.f.extractLsb' 3 1))) <|>
      (do must (x.f.extractLsb' 0 3 == 3#3); some (.vhfma px.modw x.d x.a x.b (x.f.extractLsb' 3 1))) <|>
      (do must (x.f.extractLsb' 0 3 == 4#3); some (.vhmin px.modw x.d x.a x.b (x.f.extractLsb' 3 1))) <|>
      (do must (x.f.extractLsb' 0 3 == 5#3); some (.vhmax px.modw x.d x.a x.b (x.f.extractLsb' 3 1)))
  | 0x37 => some (.vdot px.modw x.d x.a x.b x.f)
  | 0x38 =>
      (do must (x.f.extractLsb' 3 1 == 0#1); some (.vunpk px.modw x.d x.a x.b (x.f.extractLsb' 0 3))) <|>
      (do must (x.f.extractLsb' 3 1 == 1#1); some (.vpack px.modw x.d x.a x.b (x.f.extractLsb' 0 3)))
  | 0x39 =>
      (do must (x.f.extractLsb' 3 1 == 0#1); some (.vqnt px.modw x.d x.a x.b (x.f.extractLsb' 0 3))) <|>
      (do
        must (x.b == 0#7)
        must (x.f.extractLsb' 3 1 == 1#1)
        some (.vqntScale px.modw x.d x.a (x.f.extractLsb' 0 3)))
  | 0x3A => do let b ← pair? x.b; some (.rngc px.modw x.d x.a b x.f)
  | 0x3B => do must (x.b == 0#7); some (.vconf px.modw x.d x.a x.f)
  | 0x3C => match x.f.toNat with
    | 0 => some (.vshfl px.modw x.d x.a x.b)
    | 1 => do must (x.b.extractLsb' 5 2 == 0#2); some (.vshflx px.modw x.d x.a (x.b.extractLsb' 0 5))
    | 2 => do must (x.b.extractLsb' 5 2 == 0#2); some (.vshflu px.modw x.d x.a (x.b.extractLsb' 0 5))
    | 3 => do must (x.b.extractLsb' 5 2 == 0#2); some (.vshfld px.modw x.d x.a (x.b.extractLsb' 0 5))
    | _ => none
  | 0x3D => do
      must (x.b.extractLsb' 3 1 == 0#1)
      some (.vred px.modw x.d x.a (x.b.extractLsb' 4 3) (x.b.extractLsb' 0 3) x.f)
  | 0x3E =>
      (do
        must (x.b.extractLsb' 3 1 == 0#1)
        some (.vscan px.modw x.d x.a (x.b.extractLsb' 4 3) (x.b.extractLsb' 0 3) x.f)) <|>
      (do
        must (x.b.extractLsb' 3 1 == 1#1)
        some (.vscanx px.modw x.d x.a (x.b.extractLsb' 4 3) (x.b.extractLsb' 0 3) x.f))
  | 0x3F => match x.f.toNat with
    | 0 => do let d ← pred? x.d; let a ← pred? x.a; let b ← pred? x.b; some (.pand px.modw d a b)
    | 1 => do let d ← pred? x.d; let a ← pred? x.a; let b ← pred? x.b; some (.por px.modw d a b)
    | 2 => do let d ← pred? x.d; let a ← pred? x.a; let b ← pred? x.b; some (.pxor px.modw d a b)
    | 3 => do let d ← pred? x.d; let a ← pred? x.a; let b ← pred? x.b; some (.pandn px.modw d a b)
    | 4 => do let d ← pred? x.d; let a ← pred? x.a; let b ← pred? x.b; some (.porn px.modw d a b)
    | 5 => do let d ← pred? x.d; let a ← pred? x.a; must (x.b == 0#7); some (.pnot px.modw d a)
    | _ => none
  | 0x40 => match x.f.toNat with
    | 0 => do let d ← pred? x.d; let a ← reg? x.a; must (x.b == 0#7); some (.pfroms px.modw d a)
    | 1 => do let d ← reg? x.d; let a ← pred? x.a; must (x.b == 0#7); some (.ptos d a)
    | 2 => do let d ← reg? x.d; let a ← pred? x.a; must (x.b == 0#7); some (.ppopc d a)
    | 3 => do let d ← pred? x.d; let a ← pred? x.a; must (x.b == 0#7); some (.pany px.modw d a)
    | 4 => do let d ← pred? x.d; let a ← pred? x.a; must (x.b == 0#7); some (.pall px.modw d a)
    | 5 => do let d ← pred? x.d; let a ← pred? x.a; must (x.b == 0#7); some (.pfirst px.modw d a)
    | _ => none
  | _ => none

/-- Decodes the memory, atomic, object, barrier and fence opcodes 0x41 to 0x5F (08, 11, 12, 13): the operand fields of each entry, none for a word no entry defines (R61, R84). -/
def decodeMemory (px : Prefixes) (x : Fields) : Option Instr :=
  match x.op.toNat with
  | 0x41 => some (.ld8u px.modw x.d (x.a.extractLsb' 6 1) (x.a.extractLsb' 0 6) x.b x.f)
  | 0x42 => some (.ld8s px.modw x.d (x.a.extractLsb' 6 1) (x.a.extractLsb' 0 6) x.b x.f)
  | 0x43 => some (.ld16u px.modw x.d (x.a.extractLsb' 6 1) (x.a.extractLsb' 0 6) x.b x.f)
  | 0x44 => some (.ld16s px.modw x.d (x.a.extractLsb' 6 1) (x.a.extractLsb' 0 6) x.b x.f)
  | 0x45 => some (.ld32 px.modw x.d (x.a.extractLsb' 6 1) (x.a.extractLsb' 0 6) x.b x.f)
  | 0x46 => some (.ld64 px.modw x.d (x.a.extractLsb' 6 1) (x.a.extractLsb' 0 6) x.b x.f)
  | 0x47 => some (.ld128 px.modw x.d (x.a.extractLsb' 6 1) (x.a.extractLsb' 0 6) x.b x.f)
  | 0x48 => do
      must (x.f.extractLsb' 2 2 == 0#2)
      some (.st8 px.modw x.d (x.a.extractLsb' 6 1) (x.a.extractLsb' 0 6) x.b (x.f.extractLsb' 1 1) (x.f.extractLsb' 0 1))
  | 0x49 => do
      must (x.f.extractLsb' 2 2 == 0#2)
      some (.st16 px.modw x.d (x.a.extractLsb' 6 1) (x.a.extractLsb' 0 6) x.b (x.f.extractLsb' 1 1) (x.f.extractLsb' 0 1))
  | 0x4A => do
      must (x.f.extractLsb' 2 2 == 0#2)
      some (.st32 px.modw x.d (x.a.extractLsb' 6 1) (x.a.extractLsb' 0 6) x.b (x.f.extractLsb' 1 1) (x.f.extractLsb' 0 1))
  | 0x4B => do
      must (x.f.extractLsb' 2 2 == 0#2)
      some (.st64 px.modw x.d (x.a.extractLsb' 6 1) (x.a.extractLsb' 0 6) x.b (x.f.extractLsb' 1 1) (x.f.extractLsb' 0 1))
  | 0x4C => do
      must (x.f.extractLsb' 2 2 == 0#2)
      some (.st128 px.modw x.d (x.a.extractLsb' 6 1) (x.a.extractLsb' 0 6) x.b (x.f.extractLsb' 1 1) (x.f.extractLsb' 0 1))
  | 0x4D => do let a ← reg? x.a; some (.lds32 px.modw x.d a x.b x.f)
  | 0x4E => do let a ← reg? x.a; some (.lds64 px.modw x.d a x.b x.f)
  | 0x4F => do let a ← reg? x.a; some (.lds128 px.modw x.d a x.b x.f)
  | 0x50 => do let a ← reg? x.a; must (x.f == 0#4); some (.sts32 px.modw x.d a x.b)
  | 0x51 => do let a ← reg? x.a; must (x.f == 0#4); some (.sts64 px.modw x.d a x.b)
  | 0x52 => do let a ← reg? x.a; must (x.f == 0#4); some (.sts128 px.modw x.d a x.b)
  | 0x53 => do
      let a ← pair? x.a
      must (x.b.extractLsb' 0 3 == 0#3)
      some (.pld px.modw x.d a (x.b.extractLsb' 4 3) (x.b.extractLsb' 3 1) x.f)
  | 0x54 => do
      let a ← pair? x.a
      must (x.b.extractLsb' 0 4 == 0#4)
      must (x.f == 0#4)
      some (.pst px.modw x.d a (x.b.extractLsb' 4 3))
  | 0x55 => some (.atom px.modw x.d x.a (x.b.extractLsb' 3 4) (x.b.extractLsb' 0 3) x.f)
  | 0x56 => do must (x.f == 0#4); some (.red px.modw x.d x.a (x.b.extractLsb' 3 4) (x.b.extractLsb' 0 3))
  | 0x57 => some (.objcall px.modw x.d x.a x.b x.f)
  | 0x58 => do must (x.f == 0#4); some (.objpost px.modw x.d x.a x.b)
  | 0x59 => match x.f.toNat with
    | 0 => do let d ← reg? x.d; let a ← pair? x.a; let b ← pair? x.b; some (.objbind d a b)
    | 1 => do let d ← reg? x.d; let a ← pair? x.a; must (x.b == 0#7); some (.objunbind d a)
    | _ => none
  | 0x5A => do must (x.b == 0#7); must (x.f == 0#4); some (.cret x.d x.a)
  | 0x5B => do must (x.d == 0#7); must (x.b == 0#7); must (x.f == 0#4); some (.cabort x.a)
  | 0x5C => do
      let d ← reg? x.d
      let a ← pair? x.a
      must (x.b.extractLsb' 1 6 == 0#6)
      some (.waitv px.modw d a (x.b.extractLsb' 0 1) x.f)
  | 0x5D => match x.f.toNat with
    | 0 => do let d ← reg? x.d; let a ← reg? x.a; must (x.b == 0#7); some (.bara px.modw d a)
    | 1 => do must (x.d == 0#7); let a ← reg? x.a; let b ← reg? x.b; some (.barw px.modw a b)
    | 2 => do let d ← reg? x.d; let a ← reg? x.a; must (x.b == 0#7); some (.baraw px.modw d a)
    | 3 => do must (x.d == 0#7); let a ← reg? x.a; let b ← reg? x.b; some (.bari px.modw a b)
    | _ => none
  | 0x5E => match x.f.toNat with
    | 0 => do must (x.d == 0#7); must (x.a == 0#7); must (x.b == 0#7); some (.fenceAcq px.modw)
    | 1 => do must (x.d == 0#7); must (x.a == 0#7); must (x.b == 0#7); some (.fenceRel px.modw)
    | 2 => do must (x.d == 0#7); must (x.a == 0#7); must (x.b == 0#7); some (.fenceFull px.modw)
    | _ => none
  | 0x5F =>
      (do
        must ((imm18 x).extractLsb' 16 2 == 0#2)
        must (x.d == 0#7)
        some (.xfenceAcq px.modw ((imm18 x).extractLsb' 0 16))) <|>
      (do
        must ((imm18 x).extractLsb' 16 2 == 1#2)
        must (x.d == 0#7)
        some (.xfenceRel px.modw ((imm18 x).extractLsb' 0 16))) <|>
      (do
        must ((imm18 x).extractLsb' 16 2 == 2#2)
        must (x.d == 0#7)
        some (.xfenceFull px.modw ((imm18 x).extractLsb' 0 16)))
  | _ => none

/-- Decodes the queue, launch, matrix, engine and system opcodes 0x60 to 0x77 (05, 10, 14, 15, 16, 18, 19, 20): the operand fields of each entry, none for a word no entry defines (R61, R84). -/
def decodeEngine (px : Prefixes) (x : Fields) : Option Instr :=
  match x.op.toNat with
  | 0x60 => do let d ← quad? x.d; let a ← reg? x.a; must (x.b == 0#7); some (.deq px.modw d a x.f)
  | 0x61 => do let a ← reg? x.a; must (x.b == 0#7); must (x.f == 0#4); some (.enq px.modw x.d a)
  | 0x62 => do let d ← quad? x.d; let a ← reg? x.a; must (x.b == 0#7); some (.deqt px.modw d a x.f)
  | 0x63 => match x.f.toNat with
    | 0 => do let d ← pair? x.d; let a ← pair? x.a; let b ← reg? x.b; some (.launch px.modw d a b)
    | 1 => do let d ← pair? x.d; let a ← pair? x.a; let b ← reg? x.b; some (.launchi px.modw d a b)
    | _ => none
  | 0x64 => do must (x.d == 0#7); let a ← reg? x.a; must (x.b == 0#7); must (x.f == 0#4); some (.cwait px.modw a)
  | 0x65 => do must (x.d == 0#7); let a ← pair? x.a; must (x.b == 0#7); must (x.f == 0#4); some (.gangset a)
  | 0x66 =>
      (do
        let d ← pair? x.d
        let a ← pred? x.a
        let b ← pred? x.b
        must (x.f.extractLsb' 3 1 == 0#1)
        some (.mma px.mxw d a b (x.f.extractLsb' 0 3))) <|>
      (do
        let d ← pair? x.d
        let a ← pred? x.a
        let b ← pred? x.b
        must (x.f.extractLsb' 3 1 == 1#1)
        some (.mmaGang px.mxw d a b (x.f.extractLsb' 0 3)))
  | 0x67 => do
      let d ← pair? x.d
      let a ← pred? x.a
      let b ← pred? x.b
      must (x.f.extractLsb' 3 1 == 0#1)
      some (.mmas px.mxw d a b (x.f.extractLsb' 0 3))
  | 0x68 => do
      let d ← pair? x.d
      must (x.a == 0#7)
      let b ← pred? x.b
      must (x.f.extractLsb' 3 1 == 0#1)
      some (.mmap px.mxw d b (x.f.extractLsb' 0 3))
  | 0x69 => do
      let d ← pair? x.d
      let a ← pred? x.a
      let b ← pred? x.b
      must (x.f.extractLsb' 3 1 == 0#1)
      some (.mtr px.mxw d a b (x.f.extractLsb' 0 3))
  | 0x6A => match x.f.toNat with
    | 0 => do let d ← pair? x.d; must (x.a == 0#7); must (x.b == 0#7); some (.mzero px.mxw d)
    | 1 => do let d ← pair? x.d; must (x.a == 0#7); must (x.b == 0#7); some (.mlda px.mxw d)
    | 2 => do let d ← pair? x.d; must (x.a == 0#7); must (x.b == 0#7); some (.msta px.mxw d)
    | 3 => do let d ← pair? x.d; must (x.a == 0#7); must (x.b == 0#7); some (.mnorm px.mxw d)
    | _ => none
  | 0x6B => do let d ← reg? x.d; must (x.a == 0#7); must (x.b == 0#7); must (x.f == 0#4); some (.mbatch d)
  | 0x6C => do must (x.d == 0#7); let a ← reg? x.a; must (x.b == 0#7); must (x.f == 0#4); some (.mwait px.modw a)
  | 0x6D => do
      must (x.d.extractLsb' 3 4 == 0#4)
      let a ← pair? x.a
      must (x.b == 0#7)
      must (x.f == 0#4)
      some (.mlbl px.modw (x.d.extractLsb' 0 3) a)
  | 0x6E => match x.f.toNat with
    | 0 => do let a ← reg? x.a; must (x.b == 0#7); some (.mstatMax px.modw x.d a)
    | 1 => do let a ← reg? x.a; must (x.b == 0#7); some (.mstatSum px.modw x.d a)
    | 2 => do let a ← reg? x.a; must (x.b == 0#7); some (.mstatFlags px.modw x.d a)
    | 3 => do let a ← reg? x.a; must (x.b == 0#7); some (.mstatSkip px.modw x.d a)
    | _ => none
  | 0x6F => do let d ← pred? x.d; let a ← pair? x.a; let b ← reg? x.b; must (x.f == 0#4); some (.hbind px.modw d a b)
  | 0x70 =>
      (do
        let d ← reg? x.d
        let a ← quad? x.a
        let b ← pred? x.b
        must (x.f.extractLsb' 2 2 == 0#2)
        some (.feed px.modw d a b (x.f.extractLsb' 1 1) (x.f.extractLsb' 0 1))) <|>
      (do
        let d ← reg? x.d
        let a ← quad? x.a
        let b ← pred? x.b
        must (x.f.extractLsb' 2 2 == 1#2)
        some (.feedWb px.modw d a b (x.f.extractLsb' 1 1) (x.f.extractLsb' 0 1)))
  | 0x71 => do let d ← reg? x.d; let a ← pair? x.a; let b ← reg? x.b; must (x.f == 0#4); some (.cpy px.modw d a b)
  | 0x72 => do must (x.d == 0#7); let a ← reg? x.a; must (x.b == 0#7); must (x.f == 0#4); some (.qfence a)
  | 0x73 => do must (x.d == 0#7); let a ← reg? x.a; let b ← reg? x.b; must (x.f == 0#4); some (.qwait px.modw a b)
  | 0x74 => do let d ← reg? x.d; let a ← pair? x.a; let b ← reg? x.b; must (x.f == 0#4); some (.coll px.modw d a b)
  | 0x75 => do let d ← reg? x.d; let a ← quad? x.a; let b ← quad? x.b; some (.paddc px.modw d a b x.f)
  | 0x76 => do let d ← pair? x.d; let a ← reg? x.a; must (x.b == 0#7); must (x.f == 0#4); some (.lsupd d a)
  | 0x77 => match x.f.toNat with
    | 0 => do must (x.d == 0#7); must (x.a == 0#7); must (x.b == 0#7); some .snap
    | 1 => do
        let d ← quad? x.d
        must (x.a == 0#7)
        must (x.b.extractLsb' 2 5 == 0#5)
        some (.trapinfo d (x.b.extractLsb' 0 2))
    | 2 => do let d ← reg? x.d; must (x.a == 0#7); let b ← pred? x.b; some (.rdver d b)
    | _ => none
  | _ => none

/-- Decodes an instruction's own word under the prefixes of its unit, by its opcode (03 R83). -/
def decodeFields (px : Prefixes) (x : Fields) : Option Instr :=
  if x.op.toNat < 0x20 then decodeControl px x
  else if x.op.toNat < 0x30 then decodeVectorInt px x
  else if x.op.toNat < 0x41 then decodeVectorFloat px x
  else if x.op.toNat < 0x60 then decodeMemory px x
  else decodeEngine px x

/-- The opcode of a word. -/
def opcode (w : Word) : Nat := (w.extractLsb' 25 7).toNat

/-- The payload of a prefix word (03 R71, format P). -/
def payload (w : Word) : BitVec 25 := w.extractLsb' 0 25

/-- A prefix word: MODW, IMMX or MXW (03 R83). -/
def isPrefixWord (w : Word) : Bool := opcode w == 0x0E || opcode w == 0x0F || opcode w == 0x1F

/-- The instruction of a word under given prefixes: an entry defines the word, the prefixes are the ones it accepts, and its
fields are in range. -/
def decodeWord (px : Prefixes) (w : Word) : Except DecodeReject Instr :=
  if isPrefixWord w then .error .prefixOrder
  else match decodeFields px (Fields.split w) with
    | none => .error .unassigned
    | some i =>
      if i.modw ≠ px.modw ∨ i.mxw ≠ px.mxw ∨ i.immx ≠ px.immx then .error .prefixRefused
      else if i.wellFormed then .ok i else .error .illFormed

/-- After the first prefix: an IMMX may follow a MODW or MXW, and the instruction comes last (03 R75). -/
def decodeAfter (px : Prefixes) : List Word → Except DecodeReject Instr
  | [] => .error .tooShort
  | w :: ws =>
    if opcode w = 0x0F then
      match ws with
      | [] => .error .tooShort
      | v :: _ => decodeWord { px with immx := some (payload w) } v
    else decodeWord px w

/-- The instruction of a unit's words (03 R75). -/
def decodeWords : List Word → Except DecodeReject Instr
  | [] => .error .tooShort
  | w :: ws =>
    if opcode w = 0x0E then decodeAfter { modw := some (Modw.ofPayload (payload w)) } ws
    else if opcode w = 0x1F then
      match Mxw.ofPayload (payload w) with
      | none => .error .prefixReserved
      | some m => decodeAfter { mxw := some m } ws
    else decodeAfter {} (w :: ws)

/-- Whether a unit that begins with these words has a further word to fetch: every word so far is a prefix, in an order that
R75 allows. -/
def wantsMore : List Word → Bool
  | [] => true
  | [w] => isPrefixWord w
  | [w, v] => (opcode w == 0x0E || opcode w == 0x1F) && opcode v == 0x0F
  | _ => false

/-- Four bytes as a little-endian word (00 R3). -/
def wordOfBytes (b0 b1 b2 b3 : Byte) : Word := b3 ++ b2 ++ b1 ++ b0

/-- The bytes of a unit as words, as many as are whole. -/
def wordsOfBytes : List Byte → List Word
  | b0 :: b1 :: b2 :: b3 :: bs => wordOfBytes b0 b1 b2 b3 :: wordsOfBytes bs
  | _ => []

/-- The instruction that bytes begin with, or why there is none.  Total on any bytes (03 R75, R84). -/
def decode (bs : List Byte) : Except DecodeReject Instr := decodeWords (wordsOfBytes bs)

/-- How many prefix words an instruction's unit has. -/
def Instr.prefixCount (i : Instr) : Nat :=
  (if i.modw.isSome then 1 else 0) + (if i.mxw.isSome then 1 else 0) + (if i.immx.isSome then 1 else 0)

/-- The bytes of an instruction's unit: 4 for each word (03 R70, R75). -/
def Instr.unitBytes (i : Instr) : Nat := 4 * (i.prefixCount + 1)

/-- A scalar register number as a 7-bit field. -/
def regField (r : BitVec 6) : BitVec 7 := 0#1 ++ r
/-- A scalar pair as the field of its even register. -/
def pairField (r : BitVec 5) : BitVec 7 := 0#1 ++ r ++ 0#1
/-- A scalar quad as the field of its first register. -/
def quadField (r : BitVec 4) : BitVec 7 := 0#1 ++ r ++ 0#2
/-- A predicate, tile handle or index as a 7-bit field. -/
def predField (r : BitVec 4) : BitVec 7 := 0#3 ++ r
/-- imm11[10:4]. -/
def imm11B (i : BitVec 11) : BitVec 7 := i.extractLsb' 4 7
/-- imm11[3:0]. -/
def imm11F (i : BitVec 11) : BitVec 4 := i.extractLsb' 0 4
/-- imm18[17:11]. -/
def imm18A (i : BitVec 18) : BitVec 7 := i.extractLsb' 11 7
/-- imm18[10:4]. -/
def imm18B (i : BitVec 18) : BitVec 7 := i.extractLsb' 4 7
/-- imm18[3:0]. -/
def imm18F (i : BitVec 18) : BitVec 4 := i.extractLsb' 0 4

/-- The low bits of a format I value immediate, as its own word holds them (03 R79). -/
def Imm11.low : Imm11 → BitVec 11
  | .short i => i
  | .long v => v.extractLsb' 0 11

/-- The low bits of a format L value immediate, as its own word holds them (03 R79). -/
def Imm18.low : Imm18 → BitVec 18
  | .short i => i
  | .long v => v.extractLsb' 0 18

/-- The fields of an instruction's own word, without its prefixes, from the encoding tables; an event has no word and gives
the all-zero fields. -/
def Instr.fields : Instr → Fields
  | .nop => ⟨0x00#7, 0#7, 0#7, 0#7, 0#4⟩
  | .bra p n m o => ⟨0x01#7, p ++ n ++ m, imm18A o, imm18B o, imm18F o⟩
  | .brx a => ⟨0x02#7, 0#7, pairField a, 0#7, 0#4⟩
  | .call p n m o => ⟨0x03#7, p ++ n ++ m, imm18A o, imm18B o, imm18F o⟩
  | .ret a => ⟨0x04#7, 0#7, regField a, 0#7, 0#4⟩
  | .jset o => ⟨0x05#7, 0#7, imm18A o, imm18B o, imm18F o⟩
  | .dbra d i => ⟨0x06#7, regField d, imm18A i, imm18B i, imm18F i⟩
  | .exit => ⟨0x07#7, 0#7, 0#7, 0#7, 0#4⟩
  | .ychk => ⟨0x08#7, 0#7, 0#7, 0#7, 0#4⟩
  | .rgn m => ⟨0x09#7, 0#7, imm18A (0#2 ++ m), imm18B (0#2 ++ m), imm18F (0#2 ++ m)⟩
  | .rgnSp m => ⟨0x09#7, 0#7, imm18A (1#2 ++ m), imm18B (1#2 ++ m), imm18F (1#2 ++ m)⟩
  | .trap c => ⟨0x0A#7, 0#7, imm18A c, imm18B c, imm18F c⟩
  | .tret => ⟨0x0B#7, 0#7, 0#7, 0#7, 0#4⟩
  | .tretRegion => ⟨0x0B#7, 0#7, 0#7, 0#7, 1#4⟩
  | .tretAddr a => ⟨0x0B#7, 0#7, pairField a, 0#7, 2#4⟩
  | .brk c => ⟨0x0C#7, 0#7, imm18A c, imm18B c, imm18F c⟩
  | .wbase i => ⟨0x0D#7, 0#7, 0#7, imm11B i, imm11F i⟩
  | .sadd d a b => ⟨0x10#7, regField d, regField a, regField b, 0#4⟩
  | .ssub d a b => ⟨0x10#7, regField d, regField a, regField b, 1#4⟩
  | .smul d a b => ⟨0x10#7, regField d, regField a, regField b, 2#4⟩
  | .smulhu d a b => ⟨0x10#7, regField d, regField a, regField b, 3#4⟩
  | .smulhs d a b => ⟨0x10#7, regField d, regField a, regField b, 4#4⟩
  | .sand d a b => ⟨0x10#7, regField d, regField a, regField b, 5#4⟩
  | .sor d a b => ⟨0x10#7, regField d, regField a, regField b, 6#4⟩
  | .sxor d a b => ⟨0x10#7, regField d, regField a, regField b, 7#4⟩
  | .sshl d a b => ⟨0x10#7, regField d, regField a, regField b, 8#4⟩
  | .sshr d a b => ⟨0x10#7, regField d, regField a, regField b, 9#4⟩
  | .ssra d a b => ⟨0x10#7, regField d, regField a, regField b, 0xA#4⟩
  | .smin d a b => ⟨0x10#7, regField d, regField a, regField b, 0xB#4⟩
  | .smax d a b => ⟨0x10#7, regField d, regField a, regField b, 0xC#4⟩
  | .sminu d a b => ⟨0x10#7, regField d, regField a, regField b, 0xD#4⟩
  | .smaxu d a b => ⟨0x10#7, regField d, regField a, regField b, 0xE#4⟩
  | .sandn d a b => ⟨0x10#7, regField d, regField a, regField b, 0xF#4⟩
  | .saddi d a i => ⟨0x11#7, regField d, regField a, imm11B i.low, imm11F i.low⟩
  | .sandi d a i => ⟨0x12#7, regField d, regField a, imm11B i.low, imm11F i.low⟩
  | .sori d a i => ⟨0x13#7, regField d, regField a, imm11B i.low, imm11F i.low⟩
  | .sxori d a i => ⟨0x14#7, regField d, regField a, imm11B i.low, imm11F i.low⟩
  | .sshli d a i => ⟨0x15#7, regField d, regField a, imm11B (0#6 ++ i), imm11F (0#6 ++ i)⟩
  | .sshri d a i => ⟨0x16#7, regField d, regField a, imm11B (0#6 ++ i), imm11F (0#6 ++ i)⟩
  | .ssrai d a i => ⟨0x17#7, regField d, regField a, imm11B (0#6 ++ i), imm11F (0#6 ++ i)⟩
  | .sli d i => ⟨0x18#7, regField d, imm18A i.low, imm18B i.low, imm18F i.low⟩
  | .sclz d a => ⟨0x19#7, regField d, regField a, 0#7, 0#4⟩
  | .spopc d a => ⟨0x19#7, regField d, regField a, 0#7, 1#4⟩
  | .sbrev d a => ⟨0x19#7, regField d, regField a, 0#7, 2#4⟩
  | .ssxb d a => ⟨0x19#7, regField d, regField a, 0#7, 3#4⟩
  | .ssxh d a => ⟨0x19#7, regField d, regField a, 0#7, 4#4⟩
  | .smov d a => ⟨0x19#7, regField d, regField a, 0#7, 5#4⟩
  | .ssetp d a b r => ⟨0x1A#7, predField d, regField a, regField b, r⟩
  | .srsys d n => ⟨0x1B#7, regField d, 0#7, imm11B n, imm11F n⟩
  | .swsys a n => ⟨0x1C#7, 0#7, regField a, imm11B n, imm11F n⟩
  | .smovv d a b => ⟨0x1D#7, regField d, a, regField b, 0#4⟩
  | .ssel d a b p => ⟨0x1E#7, regField d, regField a, regField b, p⟩
  | .vadd _ d a b => ⟨0x20#7, d, a, b, 0#4⟩
  | .vsub _ d a b => ⟨0x20#7, d, a, b, 1#4⟩
  | .vmul _ d a b => ⟨0x20#7, d, a, b, 2#4⟩
  | .vmulhu _ d a b => ⟨0x20#7, d, a, b, 3#4⟩
  | .vmulhs _ d a b => ⟨0x20#7, d, a, b, 4#4⟩
  | .vand _ d a b => ⟨0x20#7, d, a, b, 5#4⟩
  | .vor _ d a b => ⟨0x20#7, d, a, b, 6#4⟩
  | .vxor _ d a b => ⟨0x20#7, d, a, b, 7#4⟩
  | .vshl _ d a b => ⟨0x20#7, d, a, b, 8#4⟩
  | .vshr _ d a b => ⟨0x20#7, d, a, b, 9#4⟩
  | .vsra _ d a b => ⟨0x20#7, d, a, b, 0xA#4⟩
  | .vmin _ d a b => ⟨0x20#7, d, a, b, 0xB#4⟩
  | .vmax _ d a b => ⟨0x20#7, d, a, b, 0xC#4⟩
  | .vminu _ d a b => ⟨0x20#7, d, a, b, 0xD#4⟩
  | .vmaxu _ d a b => ⟨0x20#7, d, a, b, 0xE#4⟩
  | .vandn _ d a b => ⟨0x20#7, d, a, b, 0xF#4⟩
  | .vaddh2 _ d a b => ⟨0x21#7, d, a, b, 0#4⟩
  | .vsubh2 _ d a b => ⟨0x21#7, d, a, b, 1#4⟩
  | .vmulh2 _ d a b => ⟨0x21#7, d, a, b, 2#4⟩
  | .vminh2 _ d a b => ⟨0x21#7, d, a, b, 3#4⟩
  | .vmaxh2 _ d a b => ⟨0x21#7, d, a, b, 4#4⟩
  | .vminuh2 _ d a b => ⟨0x21#7, d, a, b, 5#4⟩
  | .vmaxuh2 _ d a b => ⟨0x21#7, d, a, b, 6#4⟩
  | .vmad _ d a b t => ⟨0x22#7, d, a, b, 0#3 ++ t⟩
  | .vaddi _ d a i => ⟨0x23#7, d, a, imm11B i.low, imm11F i.low⟩
  | .vandi _ d a i => ⟨0x24#7, d, a, imm11B i.low, imm11F i.low⟩
  | .vshli _ d a i => ⟨0x25#7, d, a, imm11B (0#6 ++ i), imm11F (0#6 ++ i)⟩
  | .vshri _ d a i => ⟨0x26#7, d, a, imm11B (0#6 ++ i), imm11F (0#6 ++ i)⟩
  | .vsrai _ d a i => ⟨0x27#7, d, a, imm11B (0#6 ++ i), imm11F (0#6 ++ i)⟩
  | .vclz _ d a => ⟨0x28#7, d, a, 0#7, 0#4⟩
  | .vpopc _ d a => ⟨0x28#7, d, a, 0#7, 1#4⟩
  | .vbrev _ d a => ⟨0x28#7, d, a, 0#7, 2#4⟩
  | .vmov _ d a => ⟨0x28#7, d, a, 0#7, 3#4⟩
  | .vnot _ d a => ⟨0x28#7, d, a, 0#7, 4#4⟩
  | .viabs _ d a => ⟨0x28#7, d, a, 0#7, 5#4⟩
  | .vineg _ d a => ⟨0x28#7, d, a, 0#7, 6#4⟩
  | .vbfeu _ d a b => ⟨0x29#7, d, a, b, 0#4⟩
  | .vbfes _ d a b => ⟨0x29#7, d, a, b, 1#4⟩
  | .vbfi _ d a b => ⟨0x2A#7, d, a, b, 0#4⟩
  | .vpermb _ d a b => ⟨0x2B#7, d, a, b, 0#4⟩
  | .vpermbN4 _ d a b => ⟨0x2B#7, d, a, b, 1#4⟩
  | .vsetp _ d a b r => ⟨0x2C#7, predField d, a, b, r⟩
  | .vsel _ d a b p => ⟨0x2D#7, d, a, b, p⟩
  | .vmovs _ d a => ⟨0x2E#7, d, regField a, 0#7, 0#4⟩
  | .vins _ d a b => ⟨0x2E#7, d, regField a, regField b, 1#4⟩
  | .vlane _ d => ⟨0x2E#7, d, 0#7, 0#7, 2#4⟩
  | .vmovxr _ d a => ⟨0x2F#7, d, regField a, 0#7, 0#4⟩
  | .vmovxw _ a b => ⟨0x2F#7, 0#7, regField a, b, 1#4⟩
  | .vfadd _ d a b w => ⟨0x30#7, d, a, b, w ++ 0#3⟩
  | .vfsub _ d a b w => ⟨0x30#7, d, a, b, w ++ 1#3⟩
  | .vfmul _ d a b w => ⟨0x30#7, d, a, b, w ++ 2#3⟩
  | .vfmin _ d a b w => ⟨0x30#7, d, a, b, w ++ 3#3⟩
  | .vfmax _ d a b w => ⟨0x30#7, d, a, b, w ++ 4#3⟩
  | .vfminn _ d a b w => ⟨0x30#7, d, a, b, w ++ 5#3⟩
  | .vfmaxn _ d a b w => ⟨0x30#7, d, a, b, w ++ 6#3⟩
  | .vfsgn _ d a b w => ⟨0x30#7, d, a, b, w ++ 7#3⟩
  | .vfma _ d a b w => ⟨0x31#7, d, a, b, 0#3 ++ w⟩
  | .vfsetp _ d a b w r => ⟨0x32#7, predField d, a, b, w ++ r⟩
  | .vfrcp _ d a l => ⟨0x33#7, d, a, 0#7, l⟩
  | .vfrsq _ d a l => ⟨0x33#7, d, a, 1#7, l⟩
  | .vfsqrt _ d a l => ⟨0x33#7, d, a, 2#7, l⟩
  | .vfexp2 _ d a l => ⟨0x33#7, d, a, 3#7, l⟩
  | .vflog2 _ d a l => ⟨0x33#7, d, a, 4#7, l⟩
  | .vfsin _ d a l => ⟨0x33#7, d, a, 5#7, l⟩
  | .vfcos _ d a l => ⟨0x33#7, d, a, 6#7, l⟩
  | .vftanh _ d a l => ⟨0x33#7, d, a, 7#7, l⟩
  | .vcvt _ d a c => ⟨0x34#7, d, a, c, 0#4⟩
  | .vfclass _ d a t => ⟨0x35#7, d, a, 0#7, 0#2 ++ t⟩
  | .vhadd _ d a b w => ⟨0x36#7, d, a, b, w ++ 0#3⟩
  | .vhsub _ d a b w => ⟨0x36#7, d, a, b, w ++ 1#3⟩
  | .vhmul _ d a b w => ⟨0x36#7, d, a, b, w ++ 2#3⟩
  | .vhfma _ d a b w => ⟨0x36#7, d, a, b, w ++ 3#3⟩
  | .vhmin _ d a b w => ⟨0x36#7, d, a, b, w ++ 4#3⟩
  | .vhmax _ d a b w => ⟨0x36#7, d, a, b, w ++ 5#3⟩
  | .vdot _ d a b f => ⟨0x37#7, d, a, b, f⟩
  | .vunpk _ d a b s => ⟨0x38#7, d, a, b, 0#1 ++ s⟩
  | .vpack _ d a b s => ⟨0x38#7, d, a, b, 1#1 ++ s⟩
  | .vqnt _ d a b s => ⟨0x39#7, d, a, b, 0#1 ++ s⟩
  | .vqntScale _ d a s => ⟨0x39#7, d, a, 0#7, 1#1 ++ s⟩
  | .rngc _ d a b l => ⟨0x3A#7, d, a, pairField b, l⟩
  | .vconf _ d a p => ⟨0x3B#7, d, a, 0#7, p⟩
  | .vshfl _ d a b => ⟨0x3C#7, d, a, b, 0#4⟩
  | .vshflx _ d a k => ⟨0x3C#7, d, a, 0#2 ++ k, 1#4⟩
  | .vshflu _ d a k => ⟨0x3C#7, d, a, 0#2 ++ k, 2#4⟩
  | .vshfld _ d a k => ⟨0x3C#7, d, a, 0#2 ++ k, 3#4⟩
  | .vred _ d a o t l => ⟨0x3D#7, d, a, o ++ 0#1 ++ t, l⟩
  | .vscan _ d a o t l => ⟨0x3E#7, d, a, o ++ 0#1 ++ t, l⟩
  | .vscanx _ d a o t l => ⟨0x3E#7, d, a, o ++ 1#1 ++ t, l⟩
  | .pand _ d a b => ⟨0x3F#7, predField d, predField a, predField b, 0#4⟩
  | .por _ d a b => ⟨0x3F#7, predField d, predField a, predField b, 1#4⟩
  | .pxor _ d a b => ⟨0x3F#7, predField d, predField a, predField b, 2#4⟩
  | .pandn _ d a b => ⟨0x3F#7, predField d, predField a, predField b, 3#4⟩
  | .porn _ d a b => ⟨0x3F#7, predField d, predField a, predField b, 4#4⟩
  | .pnot _ d a => ⟨0x3F#7, predField d, predField a, 0#7, 5#4⟩
  | .pfroms _ d a => ⟨0x40#7, predField d, regField a, 0#7, 0#4⟩
  | .ptos d a => ⟨0x40#7, regField d, predField a, 0#7, 1#4⟩
  | .ppopc d a => ⟨0x40#7, regField d, predField a, 0#7, 2#4⟩
  | .pany _ d a => ⟨0x40#7, predField d, predField a, 0#7, 3#4⟩
  | .pall _ d a => ⟨0x40#7, predField d, predField a, 0#7, 4#4⟩
  | .pfirst _ d a => ⟨0x40#7, predField d, predField a, 0#7, 5#4⟩
  | .ld8u _ d am a b l => ⟨0x41#7, d, am ++ a, b, l⟩
  | .ld8s _ d am a b l => ⟨0x42#7, d, am ++ a, b, l⟩
  | .ld16u _ d am a b l => ⟨0x43#7, d, am ++ a, b, l⟩
  | .ld16s _ d am a b l => ⟨0x44#7, d, am ++ a, b, l⟩
  | .ld32 _ d am a b l => ⟨0x45#7, d, am ++ a, b, l⟩
  | .ld64 _ d am a b l => ⟨0x46#7, d, am ++ a, b, l⟩
  | .ld128 _ d am a b l => ⟨0x47#7, d, am ++ a, b, l⟩
  | .st8 _ d am a b s r => ⟨0x48#7, d, am ++ a, b, 0#2 ++ s ++ r⟩
  | .st16 _ d am a b s r => ⟨0x49#7, d, am ++ a, b, 0#2 ++ s ++ r⟩
  | .st32 _ d am a b s r => ⟨0x4A#7, d, am ++ a, b, 0#2 ++ s ++ r⟩
  | .st64 _ d am a b s r => ⟨0x4B#7, d, am ++ a, b, 0#2 ++ s ++ r⟩
  | .st128 _ d am a b s r => ⟨0x4C#7, d, am ++ a, b, 0#2 ++ s ++ r⟩
  | .lds32 _ d a b l => ⟨0x4D#7, d, regField a, b, l⟩
  | .lds64 _ d a b l => ⟨0x4E#7, d, regField a, b, l⟩
  | .lds128 _ d a b l => ⟨0x4F#7, d, regField a, b, l⟩
  | .sts32 _ d a b => ⟨0x50#7, d, regField a, b, 0#4⟩
  | .sts64 _ d a b => ⟨0x51#7, d, regField a, b, 0#4⟩
  | .sts128 _ d a b => ⟨0x52#7, d, regField a, b, 0#4⟩
  | .pld _ d a n r l => ⟨0x53#7, d, pairField a, n ++ r ++ 0#3, l⟩
  | .pst _ d a n => ⟨0x54#7, d, pairField a, n ++ 0#4, 0#4⟩
  | .atom _ d a o t l => ⟨0x55#7, d, a, o ++ t, l⟩
  | .red _ d a o t => ⟨0x56#7, d, a, o ++ t, 0#4⟩
  | .objcall _ d a m l => ⟨0x57#7, d, a, m, l⟩
  | .objpost _ d a m => ⟨0x58#7, d, a, m, 0#4⟩
  | .objbind d a b => ⟨0x59#7, regField d, pairField a, pairField b, 0#4⟩
  | .objunbind d a => ⟨0x59#7, regField d, pairField a, 0#7, 1#4⟩
  | .cret d a => ⟨0x5A#7, d, a, 0#7, 0#4⟩
  | .cabort a => ⟨0x5B#7, 0#7, a, 0#7, 0#4⟩
  | .waitv _ d a w r => ⟨0x5C#7, regField d, pairField a, 0#6 ++ w, r⟩
  | .bara _ d a => ⟨0x5D#7, regField d, regField a, 0#7, 0#4⟩
  | .barw _ a b => ⟨0x5D#7, 0#7, regField a, regField b, 1#4⟩
  | .baraw _ d a => ⟨0x5D#7, regField d, regField a, 0#7, 2#4⟩
  | .bari _ a b => ⟨0x5D#7, 0#7, regField a, regField b, 3#4⟩
  | .fenceAcq _ => ⟨0x5E#7, 0#7, 0#7, 0#7, 0#4⟩
  | .fenceRel _ => ⟨0x5E#7, 0#7, 0#7, 0#7, 1#4⟩
  | .fenceFull _ => ⟨0x5E#7, 0#7, 0#7, 0#7, 2#4⟩
  | .xfenceAcq _ m => ⟨0x5F#7, 0#7, imm18A (0#2 ++ m), imm18B (0#2 ++ m), imm18F (0#2 ++ m)⟩
  | .xfenceRel _ m => ⟨0x5F#7, 0#7, imm18A (1#2 ++ m), imm18B (1#2 ++ m), imm18F (1#2 ++ m)⟩
  | .xfenceFull _ m => ⟨0x5F#7, 0#7, imm18A (2#2 ++ m), imm18B (2#2 ++ m), imm18F (2#2 ++ m)⟩
  | .deq _ d a l => ⟨0x60#7, quadField d, regField a, 0#7, l⟩
  | .enq _ d a => ⟨0x61#7, d, regField a, 0#7, 0#4⟩
  | .deqt _ d a p => ⟨0x62#7, quadField d, regField a, 0#7, p⟩
  | .launch _ d a b => ⟨0x63#7, pairField d, pairField a, regField b, 0#4⟩
  | .launchi _ d a b => ⟨0x63#7, pairField d, pairField a, regField b, 1#4⟩
  | .cwait _ a => ⟨0x64#7, 0#7, regField a, 0#7, 0#4⟩
  | .gangset a => ⟨0x65#7, 0#7, pairField a, 0#7, 0#4⟩
  | .mma _ d a b s => ⟨0x66#7, pairField d, predField a, predField b, 0#1 ++ s⟩
  | .mmaGang _ d a b s => ⟨0x66#7, pairField d, predField a, predField b, 1#1 ++ s⟩
  | .mmas _ d a b s => ⟨0x67#7, pairField d, predField a, predField b, 0#1 ++ s⟩
  | .mmap _ d b s => ⟨0x68#7, pairField d, 0#7, predField b, 0#1 ++ s⟩
  | .mtr _ d a b s => ⟨0x69#7, pairField d, predField a, predField b, 0#1 ++ s⟩
  | .mzero _ d => ⟨0x6A#7, pairField d, 0#7, 0#7, 0#4⟩
  | .mlda _ d => ⟨0x6A#7, pairField d, 0#7, 0#7, 1#4⟩
  | .msta _ d => ⟨0x6A#7, pairField d, 0#7, 0#7, 2#4⟩
  | .mnorm _ d => ⟨0x6A#7, pairField d, 0#7, 0#7, 3#4⟩
  | .mbatch d => ⟨0x6B#7, regField d, 0#7, 0#7, 0#4⟩
  | .mwait _ a => ⟨0x6C#7, 0#7, regField a, 0#7, 0#4⟩
  | .mlbl _ d a => ⟨0x6D#7, 0#4 ++ d, pairField a, 0#7, 0#4⟩
  | .mstatMax _ d a => ⟨0x6E#7, d, regField a, 0#7, 0#4⟩
  | .mstatSum _ d a => ⟨0x6E#7, d, regField a, 0#7, 1#4⟩
  | .mstatFlags _ d a => ⟨0x6E#7, d, regField a, 0#7, 2#4⟩
  | .mstatSkip _ d a => ⟨0x6E#7, d, regField a, 0#7, 3#4⟩
  | .hbind _ d a b => ⟨0x6F#7, predField d, pairField a, regField b, 0#4⟩
  | .feed _ d a b c t => ⟨0x70#7, regField d, quadField a, predField b, 0#2 ++ c ++ t⟩
  | .feedWb _ d a b c t => ⟨0x70#7, regField d, quadField a, predField b, 1#2 ++ c ++ t⟩
  | .cpy _ d a b => ⟨0x71#7, regField d, pairField a, regField b, 0#4⟩
  | .qfence a => ⟨0x72#7, 0#7, regField a, 0#7, 0#4⟩
  | .qwait _ a b => ⟨0x73#7, 0#7, regField a, regField b, 0#4⟩
  | .coll _ d a b => ⟨0x74#7, regField d, pairField a, regField b, 0#4⟩
  | .paddc _ d a b l => ⟨0x75#7, regField d, quadField a, quadField b, l⟩
  | .lsupd d a => ⟨0x76#7, pairField d, regField a, 0#7, 0#4⟩
  | .snap => ⟨0x77#7, 0#7, 0#7, 0#7, 0#4⟩
  | .trapinfo d b => ⟨0x77#7, quadField d, 0#7, 0#5 ++ b, 1#4⟩
  | .rdver d b => ⟨0x77#7, regField d, 0#7, predField b, 2#4⟩
  | .powerOnReset | .deviceFunctionReset | .bringUpStageAdvance _ _ | .firmwareUpdateWrite _
  | .attestationNonceWrite _ | .partitionAssign _ | .registerWrite _ _ _ | .preEmpt _ | .drainComplete _
  | .swapBegin _ | .swapGraceExpiry _ | .contextExchange _ | .resetDeadlineExpiry _ | .spill _ | .fill _
  | .invalidate _ | .snapAllow _ _ | .run _ | .launchSubmit _ _ _ | .faultAnswer _ _ _ | .faultConsumedWrite _ _
  | .errorConsumedWrite _ _ | .orreryTakeRecord _ _ | .queueFencePass _ _ | .teamPlacement _ _ _
  | .gangSetPlacement _ _ _ | .gridRetirement _ _ | .fragmentPromotion _ _ | .teamEviction _ | .relaunchPlacement _ _
  | .forcedEviction _ | .forcedStopDeadline _ | .fragmentFusion _ _ | .resultLanding _ _ _
  | .objcallReplyLanding _ _ _ | .atomReplyLanding _ _ _ | .homeRequestArrival _ _ | .combiningWindowExpiry _ _
  | .batchStart _ _ | .fastPathBatch _ | .bindRequest _ | .unbindRequest _ | .alloc _ | .share _ | .release _
  | .append _ | .feedStart _ _ | .streamTileDelivery _ _ | .deferredDataFetch _ _ | .copy _ _ | .gather _ _
  | .scatter _ _ | .scatred _ _ | .transpose _ _ | .convert _ _ | .pad _ _ | .migrate _ _ | .matrixEngineStart _ _
  | .rendezvousTimeout _ | .mwaitRelease _ _ | .barrierWaitRelease _ _ | .waitvRelease _ _ | .tier1WaitvPoll _ _
  | .phaseStart _ _ | .phaseCommit _ _ | .quantumEnd _ | .ephemerisDeadlock _ _ | .homeLogicalTimeApply _
  | .abajaFlitReceive _ _ | .flitRetransmitTimeout _ | .pause _ _ | .resume _ _ | .portTraining _ _ _
  | .remoteRequestArrival _ | .hostCxlAccess _ _ _ _ | .poolAccessTimeout _ | .allgather _ _ _ | .redscat _ _ _
  | .allred _ _ _ | .bcast _ _ _ | .collectiveTimeout _ _ | .snapshotTrigger _ | .snapin | .snapshotLatch
  | .snapshotRelease _ | .fillCommand _ _ | .undefinedEncoding | .powerLoss => ⟨0, 0, 0, 0, 0⟩

/-- The MODW payload of its fields (03 R76). -/
def Modw.toPayload (m : Modw) : BitVec 25 :=
  m.guard ++ BitVec.ofBool m.gneg ++ BitVec.ofBool m.sat ++ BitVec.ofBool m.nega ++ BitVec.ofBool m.negb ++
  BitVec.ofBool m.absa ++ BitVec.ofBool m.absb ++ m.psc ++ m.str ++ m.scope ++ m.rnd ++ BitVec.ofBool m.clamp

/-- The MXW payload of its fields (03 R78). -/
def Mxw.toPayload (m : Mxw) : BitVec 25 :=
  BitVec.ofBool m.nega ++ BitVec.ofBool m.negb ++ BitVec.ofBool m.nacc ++ m.rel ++ BitVec.ofBool m.bias ++
  BitVec.ofBool m.act ++ m.atab ++ BitVec.ofBool m.rq ++ m.guard ++ 0#10

/-- A prefix word of an opcode and a payload (03 R71, format P). -/
def prefixWord (op : BitVec 7) (p : BitVec 25) : Word := op ++ p

/-- The words of an instruction's unit: its prefixes in the order of R75, then its own word. -/
def encode (i : Instr) : List Word :=
  (match i.modw with | none => [] | some m => [prefixWord 0x0E#7 m.toPayload]) ++
  (match i.mxw with | none => [] | some m => [prefixWord 0x1F#7 m.toPayload]) ++
  (match i.immx with | none => [] | some p => [prefixWord 0x0F#7 p]) ++ [i.fields.join]

/-- The bytes of a word, lowest address first (00 R3). -/
def bytesOfWord (w : Word) : List Byte :=
  [w.extractLsb' 0 8, w.extractLsb' 8 8, w.extractLsb' 16 8, w.extractLsb' 24 8]

/-- The bytes of an instruction's unit as memory holds them. -/
def encodeBytes (i : Instr) : List Byte := (encode i).flatMap bytesOfWord

/-- The words of a number whose bits count on from the first word's bit 0, `n` of them. -/
def tableWords (w : Nat) : Nat → List Word
  | 0 => []
  | n + 1 => BitVec.ofNat 32 w :: tableWords (w / 2 ^ 32) n

/-- The instruction the decoder reads from a row of the opcode table: one 32-bit word (and, if `nbits` says more, the words
above it), followed by words of zeros up to the longest unit of three words (03 R75). -/
def decodeTableWord (nbits w : Nat) : Option Instr :=
  match decode ((tableWords (w % 2 ^ nbits) 3).flatMap bytesOfWord) with
  | .ok i => some i
  | .error _ => none

end Sys2Proof
end

