-- ==== Sys2Proof/Machine/HomeEvents.lean ====
section
/-!
DEFINITION. The combiner homes: the arrival of requests, bins and batches (11 R286 to R291, R298), the fast path (12 R309), binds (11 R306)
and the methods of the pool table (10 R270 to R272).
-/

namespace Sys2Proof.Machine

/-! ### Bins (11 R287, R289) -/

/-- The object of a request: an intrinsic object is its element, every other is named by its base (11 R282). -/
def Request.object (r : Request) : Loc × Bool :=
  match r.ask with | .intrinsic .. => (r.loc, true) | _ => (.mem r.base.toNat, false)

/-- The object of a bin. -/
def Bin.object (b : Bin) : Option (Loc × Bool) := b.reqs.head?.map Request.object

/-- Whether a request is a bind or an unbind, which takes its place in the order alone (11 R289). -/
def Ask.isBind (a : Ask) : Bool := match a with | .bind .. => true | .unbind => true | _ => false

/-- Closes the bins that meet a condition; closed batches wait in closing order (11 R288). -/
def Home.close (h : Home) (p : Bin → Bool) : Home := { h with bins := h.bins.filter (fun b => !(p b)), closed := h.closed ++ h.bins.filter p }

/-- The bins a home has room for (11 R281), and the requests of a full bin (11 R287). -/
def binCount : Nat := 256
def binSize : Nat := 32

/-- A request joins the open bin of its key on its arrival, or opens one; a bin of another key of its object closes, and so does a bin that is
full; a home that holds as many bins as it can closes the oldest first (11 R287). -/
def Home.join (h : Home) (r : Request) : Home :=
  let mine := fun (b : Bin) => b.object == some r.object
  if r.ask.isBind then
    let h1 := h.close mine
    { h1 with nextBin := h1.nextBin + 1, closed := h1.closed ++ [{ num := h1.nextBin, obj := r.base, ask := r.ask, reqs := [r] }] }
  else
    let h1 := h.close fun b => mine b && b.ask != r.ask
    let h2 : Home :=
      if h1.bins.any mine then
        { h1 with bins := h1.bins.map fun b => if mine b then { b with reqs := b.reqs ++ [r] } else b }
      else
        let h' := if binCount ≤ h1.bins.length then h1.close (fun b => (h1.bins.head?.map Bin.num) == some b.num) else h1
        { h' with nextBin := h'.nextBin + 1, bins := h'.bins ++ [{ num := h'.nextBin, obj := r.base, ask := r.ask, reqs := [r] }] }
    h2.close fun b => decide (binSize ≤ b.reqs.length)

/-- Whether a request comes before another that arrives with it: by source id, then by the port it came in by; among those of one port, and of
one instruction, the order of the link and of the lanes stands (11 R289, 19 R432). -/
def Request.before (a b : Request) : Bool :=
  decide (a.source.toNat < b.source.toNat) || (a.source == b.source && decide (a.link < b.link))

/-- Inserts a request in that order, after those with the same place. -/
def insertBySource (r : Request) : List Request → List Request
  | [] => [r]
  | x :: rest => if r.before x then r :: x :: rest else x :: insertBySource r rest

/-- The requests of an arrival that can come: those on their way to the home of which no unit issued earlier by the same fragment is
still on its way there, and no lower lane of the same unit that does not arrive with them (11 R289, 12 R312). -/
def arrivals (s : State) (home : Nat) (ids : List Nat) : List Request :=
  s.flight.filter fun r => r.home == home && ids.contains r.id &&
    !(s.flight.any fun x => x.home == home && x.frag == r.frag &&
      (decide (x.unit < r.unit) || (x.unit == r.unit && decide (x.lane < r.lane) && !(ids.contains x.id))))

/-- HOME_REQUEST_ARRIVAL (R287): requests that arrive in one cycle, in ascending source id; a request in logical time waits for its time
(17 R406), and with W = 0 a bin holds only what has come in this cycle. -/
def execHomeRequestArrival (home : Nat) (ids : List Nat) (s : State) : Host.Outcome State Fault Refusal :=
  .next (if (s.home? home).isNone ∨ homeFull s home = true then s
  else
    let sorted := ((arrivals s home ids).foldl (fun l r => insertBySource r l) []).take (homeRoom s home)
    let rs := sorted
    let w0 := match s.part? (partOfHome s home) with | none => false | some p => p.window == 0
    let s1 : State := { s with flight := s.flight.filter fun r => !(rs.any fun x => x.id == r.id) }
    (s1.modHome home fun h =>
      let h1 := sorted.foldl (fun (h : Home) r => if r.time.isSome then { h with queue := h.queue ++ [r] } else h.join r) h
      if w0 && !(rs.isEmpty) then h1.close (fun _ => true) else h1).count 3 home 0 rs.length)

/-- COMBINING_WINDOW_EXPIRY (R287): the window of an open bin ends. -/
def execCombiningWindowExpiry (home bin : Nat) (s : State) : Host.Outcome State Fault Refusal :=
  .next (s.modHome home fun h => h.close fun b => b.num == bin)

/-! ### Which batch may start (11 R288, R300) -/

/-- The closed bins whose object runs no batch and has none that closed earlier, in closing order. -/
def startable (h : Home) : List Bin :=
  (h.closed.foldl (fun (acc : List Bin × List (Option (Loc × Bool))) b =>
    if acc.2.contains b.object then acc else (acc.1 ++ [b], acc.2 ++ [b.object])) ([], h.batches.map fun b => b.bin.object)).1

/-- Whether a home waits on a page for a bin (11 R284, R298). -/
def Home.waitsFor (h : Home) (num : Nat) : Bool := h.pauses.any fun x => x.1 == num && resumeOf (some x.2) == .wait

/-- The first startable bin of some kind that waits on no page, while the partition's homes start batches (11 R300, 16 R389). -/
def firstBin (s : State) (home : Nat) (p : Bin → Bool) : Option Bin :=
  if partWorks s (partOfHome s home) then (s.home? home).bind fun h => (startable h).find? fun b => p b && !(h.waitsFor b.num) else none

/-- Takes a closed bin away. -/
def takeBin (s : State) (home num : Nat) : State := s.modHome home fun h => { h with closed := h.closed.filter fun b => !(b.num == num) }

/-- The binding of a base at a home. -/
def bindingOf (s : State) (home : Nat) (base : Dword) : Option Binding := (s.home? home).bind fun h => h.bindings.find? fun b => b.base == base

/-- A bin of method requests; one that the pool methods serve (10 R270). -/
def isMethodBin (b : Bin) : Bool := match b.ask with | .method _ => true | _ => false
def isPoolBin (s : State) (home : Nat) (b : Bin) : Bool :=
  match b.ask, bindingOf s home b.obj with
  | .method m, some x => x.table.isNone && decide (m.toNat < 4)
  | _, _ => false

/-- For whom a home reads and writes (11 R284). -/
def homeCtx (home : Nat) (r : Rights) : EngCtx :=
  { rights := r, view := {}, eph := false, req := requester 3 home, team := 0, gid := 0, q := 0 }

/-! ### Service groups (11 R281, R291) -/

/-- A group with every register at zero (03 R60). -/
def blankGroup (id part : Nat) (role : Role) : Group :=
  { id := id, role := role, part := part, team := 0, num := 0, quadrant := 0, slot := 0, age := id, exited := false, v := [], s := [], p := [],
    acc := [], handles := [], window := 0, granules := 0, tiles := 0, handleN := 0, gang := 0, joints := 0, rngkey := 0,
    smscale := 0x3F800000, trap := {}, regions := 0, frags := [], splits := [], handler := none, trapWait := none, stage := {}, cmds := 0,
    nextBatch := 1, batches := [], narrow := [], logical := none }

/-- The group of a batch at its method's entry: request i's operands in v0 and v1 of lane i and its source id in v2, the base, the method
id and the number of requests in s0 to s3 (11 R291). -/
def serviceGroup (s : State) (id fid part home sg : Nat) (b : Bin) (entry : Dword) : Group :=
  let n := b.reqs.length
  let m := match b.ask with | .method m => m.setWidth 32 | _ => 0
  let g0 : Group := { blankGroup id part (.service home sg) with slot := sg, granules := 8, smscale := 0x3F800000 }
  let g1 := (List.zip (List.range n) b.reqs).foldl (fun g x =>
    ((g.setV 0 x.1 x.2.op0).setV 1 x.1 x.2.op1).setV 2 x.1 x.2.source) g0
  let g2 := ((g1.setPair 0 b.obj).setS 2 m).setS 3 (BitVec.ofNat 32 n)
  let f := freshFrag fid (maskOf (List.range n)) entry s.tick
  newRegion { g2 with frags := [f] } f entry

/-- Starts the batch of a service group from its method's entry, with an empty buffer (11 R291, R298). -/
def startBatch (s : State) (home sg : Nat) (b : Bin) (entry : Dword) (r : Rights) : State :=
  let (id, s1) := s.fresh
  let (fid, s2) := s1.fresh
  let g := serviceGroup s2 id fid (partOfHome s home) home sg b entry
  let batch : Batch := { sg := sg, bin := b, entry := entry, rights := r, buffer := [], posts := [], pause := none }
  let s3 : State := { s2 with groups := (s2.groups.filter fun g => !(g.role == .service home sg)) ++ [g] }
  s3.modHome home fun h => { h with batches := (h.batches.filter fun x => !(x.sg == sg)) ++ [batch] }

/-- Runs the batch of a service group again from its entry: buffer and held posts are discarded (11 R298). -/
def replayBatch (s : State) (home sg : Nat) : State :=
  match (s.home? home).bind fun h => h.batches.find? fun b => b.sg == sg with
  | none => s
  | some b => if b.pause.isSome then s else startBatch s home sg b.bin b.entry b.rights

/-- Reads the method's entry from a method table as it stands (11 R284): none when the id has no method. -/
def methodEntry (s : State) (e : EngCtx) (table : Dword) (m : Nat) : Except (State × EngErr) (State × Option Dword) :=
  match engRead s e ((table.toNat + 2 : Nat) : Int) 1 with
  | .error y => .error y
  | .ok (s1, n) =>
    if n ≤ m then .ok (s1, none)
    else match engRead s1 e ((table.toNat + 0x40 + 8 * m : Nat) : Int) 8 with
      | .error y => .error y
      | .ok (s2, x) => .ok (s2, if x = 0 ∨ x % 4 ≠ 0 then none else some (BitVec.ofNat 64 x))

/-- The trap cause that stands for an engine's failure in the log (16 R379, 20 R448). -/
def causeOf (status : Byte) : Byte := if status = errMem then causeMemerr else if status = errPage then causePage else causeAccess

/-- A batch that has no method: status 0xF2 in every lane (11 R284, R296). -/
def noMethod (s : State) (part : Nat) (rs : List Request) (status : Byte) : State := rs.foldl (fun s r => replyStatus s part r status) s

/-- The entry of a method in its table: what the log gives as the PC of a table read that failed (11 R284, 20 R448). -/
def entrySlot (table : Dword) (m : Nat) : Dword := table + BitVec.ofNat 64 (0x40 + 8 * m)

/-- The method id of a bin. -/
def Bin.methodId (b : Bin) : Nat := match b.ask with | .method m => m.toNat | _ => 0

/-- The start of a batch, once its bin holds a service group. -/
def beginBatch (s : State) (home sg : Nat) (b : Bin) (x : Binding) (table : Dword) : State :=
  let part := partOfHome s home
  let m := b.methodId
  match methodEntry s (homeCtx home x.rights) table m with
  | .ok (s1, none) => noMethod (dropBatch s1 home sg) part b.reqs 0xF2
  | .ok (s1, some entry) => (startBatch s1 home sg b entry x.rights).count 3 home 1 1
  | .error (s1, err) =>
    let hold := fun (p : Option Pause) (s : State) => s.modHome home fun h =>
      { h with batches := (h.batches.filter fun y => !(y.sg == sg)) ++
          [{ sg := sg, bin := b, entry := table, rights := x.rights, buffer := [], posts := [], pause := p }] }
    match err with
    | .page a k w =>
      let p := engPause s1 (homeCtx home x.rights) a k w
      hold (some p.2) p.1
    | .fail st a => failBatch (hold none s1) home sg 0xF0 (some (causeOf st, a, entrySlot table m))

/-- BATCH_START (R291): a closed batch of a user method starts in a free service group; one whose object is not bound, or whose id has no
method, replies 0xF2.  A start that waited on a page is tried again. -/
def execBatchStart (home sg : Nat) (s : State) : Host.Outcome State Fault Refusal :=
  .next (if 4 ≤ sg ∨ partWorks s (partOfHome s home) = false then s
  else match (s.home? home).bind fun h => h.batches.find? fun b => b.sg == sg with
    | some b =>
      match b.pause with
      | none => s
      | some _ =>
        match resumeOf b.pause, bindingOf s home b.bin.obj with
        | .wait, _ => s
        | .fail a, _ => failBatch s home sg 0xF0 (some (causePage, a, entrySlot b.entry b.bin.methodId))
        | .go, some x => beginBatch s home sg b.bin x (x.table.getD 0)
        | .go, none => noMethod (dropBatch s home sg) (partOfHome s home) b.bin.reqs 0xF2
    | none =>
      match firstBin s home fun b => isMethodBin b && !(isPoolBin s home b) with
      | none => s
      | some b =>
        let s1 := takeBin s home b.num
        match bindingOf s home b.obj with
        | none => noMethod s1 (partOfHome s home) b.reqs 0xF2
        | some x => match x.table with
          | none => noMethod s1 (partOfHome s home) b.reqs 0xF2
          | some t => beginBatch s1 home sg b x t)

/-! ### The fast path (11 R281, 12 R309) -/

/-- A closed bin with its requests changed. -/
def modClosed (s : State) (home num : Nat) (f : List Request → List Request) : State :=
  s.modHome home fun h => { h with closed := h.closed.map fun b => if b.num = num then { b with reqs := f b.reqs } else b }

/-- One access of the batch of an element in a pool: the first of its first request reads the element, and the second writes it, upon which
the request is done and the next one stands first (12 R309, 19 R436).  It waits while another batch of the home updates a pool. -/
def pooledStep (s : State) (home : Nat) (b : Bin) (r : Request) (rest : List Request) : State :=
  let part := partOfHome s home
  if r.found.isNone && !(broken s part r.loc) then
    if poolBusy s home none (some b.num) then s else
    let old := natOfBytes ((List.range r.ask.bytes).map fun i => atomicByte s r (r.loc.plus i))
    modClosed s home b.num fun _ => { r with found := some old } :: rest
  else
    let s1 := performAtomic s 0 part r
    if rest.isEmpty then (takeBin s1 home b.num).count 3 home 2 1 else modClosed s1 home b.num fun _ => rest

/-- FAST_PATH_BATCH (R309): an intrinsic batch, its requests one at a time in the linearisation order, each with its reply.  The batch of an
element in a pool takes one access at a time, so that other accesses of the pool can come between two of them (19 R436). -/
def execFastPathBatch (home : Nat) (s : State) : Host.Outcome State Fault Refusal :=
  .next (match firstBin s home fun b => b.ask.isIntrinsic with
    | none => s
    | some b =>
      match b.reqs with
      | [] => takeBin s home b.num
      | r :: rest =>
        if r.loc.pooled then pooledStep s home b r rest
        else
          let part := partOfHome s home
          (b.reqs.foldl (fun s r => performAtomic s ((r.time.map Prod.fst).getD 0) part r) (takeBin s home b.num)).count 3 home 2 1)

/-! ### Binds (11 R306) -/

/-- Whether the home waits on a page for a bin, may go on, or was answered with fail. -/
def homeResume (s : State) (home num : Nat) : Resume :=
  resumeOf (((s.home? home).bind fun h => h.pauses.find? fun x => x.1 == num).map Prod.snd)

/-- A home waits on a page for a bin (11 R284, R298). -/
def homeWait (s : State) (home num : Nat) (e : EngCtx) (a : Dword) (k : Byte) (w : Bool) : State :=
  let p := engPause s e a k w
  p.1.modHome home fun h => { h with pauses := h.pauses.filter (fun x => x.1 != num) ++ [(num, p.2)] }

/-- A home no longer waits for a bin. -/
def homeGo (s : State) (home num : Nat) : State := s.modHome home fun h => { h with pauses := h.pauses.filter fun x => x.1 != num }

/-- The first condition of status 0x04 (11 R306). -/
def bindMalformed (len sel : Word) : Bool :=
  len == 0 || !(len.toNat % 64 == 0) || decide (1 < sel.toNat) || (sel == 1 && len != 64)

/-- Whether the table of a bind is well formed: a method table (11 R284), or a block pool descriptor at the base (10 R271). -/
def bindTable (s : State) (e : EngCtx) (base : Dword) (sel : Word) (table : Dword) : Except (State × EngErr) (State × Bool) :=
  if sel = 1 then
    match engRecord s e base.toNat with
    | .error y => .error y
    | .ok (s1, bs) => .ok (s1, (poolOf bs).isSome)
  else if table = 0 ∨ table.toNat % 64 ≠ 0 then .ok (s, false)
  else
    match engRecord s e table.toNat with
    | .error y => .error y
    | .ok (s1, bs) =>
      .ok (s1, fieldOf bs 0 2 == 1 && decide (1 ≤ fieldOf bs 2 1) && decide (fieldOf bs 2 1 ≤ 128) && fieldOf bs 3 61 == 0)

/-- The binding table's entries (11 R281). -/
def bindCount : Nat := 4096

/-- Enters a binding, or says why not: 0x03, 0x02, 0x01 in this order (11 R306). -/
def enterBinding (s : State) (home : Nat) (r : Request) (len sel : Word) (table : Dword) (ok : Bool) : State × Byte :=
  match s.home? home with
  | none => (s, 0x01)
  | some h =>
    if ok = false then (s, 0x03)
    else if h.bindings.any fun b => b.base == r.base then (s, 0x02)
    else if bindCount ≤ h.bindings.length then (s, 0x01)
    else
      let b : Binding := { base := r.base, length := len, table := if sel = 1 then none else some table, rights := r.rights }
      (s.modHome home fun h => { h with bindings := h.bindings ++ [b] }, 0x00)

/-- BIND_REQUEST (R306): an OBJBIND takes its place in the object's order. -/
def execBindRequest (home : Nat) (s : State) : Host.Outcome State Fault Refusal :=
  .next (match firstBin s home fun b => match b.ask with | .bind .. => true | _ => false with
    | none => s
    | some b =>
      match b.ask, b.reqs.head? with
      | .bind len sel table, some r =>
        let part := partOfHome s home
        let reply := fun (x : State × Byte) => replyStatus (takeBin (homeGo x.1 home b.num) home b.num) part r x.2
        if bindMalformed len sel then reply (s, 0x04)
        else match homeResume s home b.num with
          | .wait => s
          | .fail _ => reply (s, 0x03)
          | .go =>
            match bindTable s (homeCtx home r.rights) r.base sel table with
            | .ok (s1, ok) => reply (enterBinding s1 home r len sel table ok)
            | .error (s1, .fail ..) => reply (s1, 0x03)
            | .error (s1, .page a k w) => homeWait s1 home b.num (homeCtx home r.rights) a k w
      | _, _ => s)

/-- UNBIND_REQUEST (R306): an OBJUNBIND removes the binding, or replies 0x05. -/
def execUnbindRequest (home : Nat) (s : State) : Host.Outcome State Fault Refusal :=
  .next (match firstBin s home fun b => b.ask == .unbind with
    | none => s
    | some b =>
      match b.reqs.head? with
      | none => s
      | some r =>
        let bound := (bindingOf s home r.base).isSome
        let s1 := (takeBin s home b.num).modHome home fun h => { h with bindings := h.bindings.filter fun x => !(x.base == r.base) }
        replyStatus s1 (partOfHome s home) r (if bound then 0x00 else 0x05))

/-! ### The pool methods (10 R270 to R272) -/

/-- The replies of a pool batch so far: value, when the status gives one, and status; in order. -/
abbrev PoolReplies := List (Option Word × Byte)

/-- Writes the free count of a pool descriptor. -/
def putFree (s : State) (e : EngCtx) (base : Dword) (n : Nat) : Except (State × EngErr) State :=
  engWrite s e ((base.toNat + 0x14 : Nat) : Int) 4 n

/-- The count of a block. -/
def blockRef (s : State) (e : EngCtx) (p : Pool) (i : Nat) : Except (State × EngErr) (State × Nat) :=
  engRead s e ((p.refs + 2 * i : Nat) : Int) 2
def putRef (s : State) (e : EngCtx) (p : Pool) (i n : Nat) : Except (State × EngErr) State :=
  engWrite s e ((p.refs + 2 * i : Nat) : Int) 2 n

/-- Pops a free block. -/
def popBlock (s : State) (e : EngCtx) (base : Dword) (p : Pool) : Except (State × EngErr) (State × Nat) :=
  match engRead s e ((p.stack + 4 * (p.free - 1) : Nat) : Int) 4 with
  | .error y => .error y
  | .ok (s1, i) =>
    match putFree s1 e base (p.free - 1) with
    | .error y => .error y
    | .ok s2 => .ok (s2, i)

/-- ALLOC: pops a block and sets its count to 1. -/
def poolAlloc (s : State) (e : EngCtx) (base : Dword) (p : Pool) : Except (State × EngErr) (State × Option Word × Byte) :=
  if p.free = 0 then .ok (s, none, 0x01)
  else match popBlock s e base p with
    | .error y => .error y
    | .ok (s1, i) =>
      if p.count ≤ i then .ok (s, none, 0x80)
      else match putRef s1 e p i 1 with
        | .error y => .error y
        | .ok s2 => .ok (s2, some (BitVec.ofNat 32 i), 0)

/-- SHARE: one more count. -/
def poolShare (s : State) (e : EngCtx) (p : Pool) (i : Nat) : Except (State × EngErr) (State × Option Word × Byte) :=
  if p.count ≤ i then .ok (s, none, 0x80)
  else match blockRef s e p i with
    | .error y => .error y
    | .ok (s1, n) =>
      if n = 65535 then .ok (s1, none, 0x81)
      else match putRef s1 e p i (n + 1) with
        | .error y => .error y
        | .ok s2 => .ok (s2, some (BitVec.ofNat 32 (n + 1)), 0)

/-- RELEASE: one count less, and at 0 the block is pushed. -/
def poolRelease (s : State) (e : EngCtx) (base : Dword) (p : Pool) (i : Nat) : Except (State × EngErr) (State × Option Word × Byte) :=
  if p.count ≤ i then .ok (s, none, 0x80)
  else match blockRef s e p i with
    | .error y => .error y
    | .ok (s1, n) =>
      if n = 0 then .ok (s1, none, 0x81)
      else match putRef s1 e p i (n - 1) with
        | .error y => .error y
        | .ok s2 =>
          if n ≠ 1 then .ok (s2, some (BitVec.ofNat 32 (n - 1)), 0)
          else match engWrite s2 e ((p.stack + 4 * p.free : Nat) : Int) 4 i with
            | .error y => .error y
            | .ok s3 => match putFree s3 e base (p.free + 1) with
              | .error y => .error y
              | .ok s4 => .ok (s4, some 0, 0)

/-- Copies the bytes of a block to another. -/
def copyBlock (e : EngCtx) (src dst : Nat) : List (Nat × Nat) → State → Except (State × EngErr) State
  | [], s => .ok s
  | (off, n) :: rest, s =>
    match engRead s e ((src + off : Nat) : Int) n with
    | .error y => .error y
    | .ok (s1, x) =>
      match engWrite s1 e ((dst + off : Nat) : Int) n x with
      | .error y => .error y
      | .ok s2 => copyBlock e src dst rest s2

/-- Writes a table entry and invalidates it in the block translation caches of the partition (10 R270). -/
def putEntry (s : State) (e : EngCtx) (a n : Nat) : Except (State × EngErr) State :=
  match engWrite s e (a : Int) 4 n with
  | .error y => .error y
  | .ok s1 => .ok (s1.modPart e.rights.part fun p => { p with blockTlb := p.blockTlb.filter fun x => x.2.1 != a })

/-- APPEND (10 R272): the tail block of a sequence is copied when it is shared, or appended to in place. -/
def poolAppend (s : State) (e : EngCtx) (base : Dword) (p : Pool) (a : Nat) : Except (State × EngErr) (State × Option Word × Byte) :=
  match engRead s e (a : Int) 4 with
  | .error y => .error y
  | .ok (s1, w) =>
    let i := bitsOf w 27 0
    if bitsOf w 30 28 ≠ 0 then .ok (s1, none, 0x82)
    else if p.count ≤ i then .ok (s1, none, 0x80)
    else match blockRef s1 e p i with
      | .error y => .error y
      | .ok (s2, n) =>
        if 1 < n then
          if p.free = 0 then .ok (s2, none, 0x01)
          else match popBlock s2 e base p with
            | .error y => .error y
            | .ok (s3, k) =>
              if p.count ≤ k then .ok (s2, none, 0x80)
              else match copyBlock e (p.base + i * p.block) (p.base + k * p.block) (bufferPieces (p.base + i * p.block) p.block) s3 with
              | .error y => .error y
              | .ok s4 => match putRef s4 e p k 1 with
                | .error y => .error y
                | .ok s5 => match putRef s5 e p i (n - 1) with
                  | .error y => .error y
                  | .ok s6 => match putEntry s6 e a k with
                    | .error y => .error y
                    | .ok s7 => .ok (s7, some (BitVec.ofNat 32 k), 0)
        else match putEntry s2 e a i with
          | .error y => .error y
          | .ok s3 => .ok (s3, some (BitVec.ofNat 32 i), 0)

/-- One request of a pool batch: the descriptor is read as it stands; a malformed one changes nothing (10 R271). -/
def poolRequest (s : State) (e : EngCtx) (m : Nat) (r : Request) : Except (State × EngErr) (State × Option Word × Byte) :=
  match engRecord s e r.base.toNat with
  | .error y => .error y
  | .ok (s1, bs) =>
    match poolOf bs with
    | none => .ok (s1, none, 0x82)
    | some p =>
      match m with
      | 0 => poolAlloc s1 e r.base p
      | 1 => poolShare s1 e p r.op0.toNat
      | 2 => poolRelease s1 e r.base p r.op0.toNat
      | _ => poolAppend s1 e r.base p (r.op1.toNat * pow2 32 + r.op0.toNat)

/-- The requests of a pool batch one after another, in linearisation order. -/
def poolRun (e : EngCtx) (m : Nat) : List Request → State → Except (State × EngErr) (State × PoolReplies)
  | [], s => .ok (s, [])
  | r :: rest, s =>
    match poolRequest s e m r with
    | .error y => .error y
    | .ok (s1, v) =>
      match poolRun e m rest s1 with
      | .error y => .error y
      | .ok (s2, l) => .ok (s2, v :: l)

/-- Logs the word with an error that an access of a home met (10 R259, 20 R448). -/
def logError (s : State) (e : EngCtx) (a : Dword) : State :=
  match translate s e.rights none .load a 0 with
  | .loc l _ _ => logAccess s e.rights.part l a 0 e.req
  | _ => s

/-- The home's pool method no longer holds what it read of the pools. -/
def endPool (s : State) (home : Nat) : State := s.modHome home fun h => { h with found := none, stores := false }

/-- The pool batch that comes first: the one that has read the pools, until it is done (19 R436). -/
def firstPool (s : State) (home : Nat) : Option Bin :=
  firstBin s home fun b => isPoolBin s home b && (((s.home? home).bind Home.found).all fun x => x.1 == b.num)

/-- What a pool batch works in: its binding's rights, the home whose method it is, and its requests. -/
def poolCtx (home : Nat) (r : Rights) (asks : List Request) : EngCtx := { homeCtx home r with queue := .home home, asks := asks }

/-- Whether a pool batch that has run has written a pool without having read the pools in an access of its own: it takes that access now
(19 R436). -/
def poolReads (s : State) (home : Nat) : Bool := (s.home? home).any fun h => h.stores && h.found.isNone

/-- The first of the two accesses: what the pools hold. -/
def readPools (s : State) (home num : Nat) : State :=
  s.modHome home fun h => { h with found := some (num, s.mem.filter fun x => keyTier x.1 == 1) }

/-- Runs the pool batch that comes first when its method is `m`: it is whole or nothing, a page that is not present makes it wait, and
another failure is a fatal method fault (11 R298, R299); one that writes a pool does so in a second access, with what the first has read,
and waits while another batch of the home updates a pool (19 R436). -/
def poolStep (home m : Nat) (s : State) : State :=
  match firstPool s home with
  | none => s
  | some b =>
    match b.ask, bindingOf s home b.obj with
    | .method id, some x =>
      if id.toNat ≠ m then s
      else
        let part := partOfHome s home
        let e := poolCtx home x.rights b.reqs
        let fatal := fun (s : State) (cause : Byte) (a : Dword) =>
          let s0 := if cause = causeMemerr then logError s e a else s
          let s1 := (errLog s0 part 0x03 cause a b.obj 0 (id.setWidth 32) (BitVec.ofNat 32 home)).count 3 home 3 1
          replyAll (takeBin (homeGo (endPool s1 home) home b.num) home b.num) part b.reqs 0 0xF0
        match homeResume s home b.num with
        | .wait => s
        | .fail a => fatal s causePage a
        | .go =>
          match poolRun e m b.reqs s with
          | .ok (s1, l) =>
            if poolReads s1 home then (if poolBusy s home none (some b.num) then s else readPools s home b.num)
            else (List.zip b.reqs l).foldl (fun s y => match y.2.1 with
              | some v => replyTo s part y.1 v (y.2.2.setWidth 32) false
              | none => replyStatus s part y.1 y.2.2) ((takeBin (homeGo (endPool s1 home) home b.num) home b.num).count 3 home 1 1)
          | .error (_, .fail st a) => fatal s (causeOf st) a
          | .error (_, .page a k w) => homeWait (endPool s home) home b.num e a k w
    | _, _ => s

/-- ALLOC (R270). -/
def execAlloc (home : Nat) (s : State) : Host.Outcome State Fault Refusal := .next (poolStep home 0 s)

/-- SHARE (R270). -/
def execShare (home : Nat) (s : State) : Host.Outcome State Fault Refusal := .next (poolStep home 1 s)

/-- RELEASE (R270). -/
def execRelease (home : Nat) (s : State) : Host.Outcome State Fault Refusal := .next (poolStep home 2 s)

/-- APPEND (R272). -/
def execAppend (home : Nat) (s : State) : Host.Outcome State Fault Refusal := .next (poolStep home 3 s)

end Sys2Proof.Machine
end

