-- ==== Sys2Proof/Machine/Sync.lean ====
section
/-!
DEFINITION. Barriers, WAITV and the fences (12 R315 to R322, 13 R335, R336; 17 R409).
-/

namespace Sys2Proof.Machine

/-! ### Barrier words (12 R317, R319) -/

/-- The word at the offset in s[a], after the checks of R319: a multiple of 8, below 128 and below the slice size. -/
def barAt (c : Ctx) (a : BitVec 6) : Except UnitRes Nat :=
  let off := (c.g.getS a.toNat).toNat
  let addr := 0xFFFE000000000000#64 + BitVec.ofNat 64 off
  if off % 8 ≠ 0 then .error (.trap causeMisalign c.f.mask addr)
  else
    let len := match c.s.team? c.g.team with | none => 0 | some t => t.sliceLen
    if 128 ≤ off ∨ len ≤ off then .error (.trap causeAccess c.f.mask addr) else .ok (off / 8)

/-- A barrier word as a group sees it: whether it is armed, and its phase, arrived and count. -/
structure BarView where
  armed   : Bool
  phase   : Nat
  arrived : Nat
  count   : Nat
  deriving DecidableEq, Repr

/-- A barrier word from its eight bytes, and its bytes (12 R315). -/
def BarView.ofBytes (armed : Bool) (bs : List Byte) : BarView :=
  let x := natOfBytes bs
  { armed := armed, phase := bitsOf x 63 32, arrived := bitsOf x 31 16, count := bitsOf x 15 0 }
def BarView.bytes (v : BarView) : List Byte := bytesOfNat 8 (v.phase % pow2 32 * pow2 32 + v.arrived * pow2 16 + v.count)

/-- One held effect on the word that a group sees: its barrier operations, and its stores and atomics in the slice (17 R404, R409). -/
def BarView.after (v : BarView) (team word : Nat) (e : Effect) : BarView :=
  match e with
  | .barInit w c =>
    if w ≠ word then v
    else if !v.armed then { armed := true, phase := 0, arrived := 0, count := c.toNat }
    else if v.arrived = 0 then { v with count := c.toNat } else v
  | .barArrive w _ _ _ =>
    if w ≠ word ∨ v.armed = false then v
    else if (v.arrived + 1) % pow2 16 = v.count then { v with arrived := 0, phase := v.phase + 1 }
    else { v with arrived := (v.arrived + 1) % pow2 16 }
  | _ => .ofBytes v.armed (e.onto (.slice team (8 * word)) v.bytes)

/-- Whether a word is armed in a group's view: in a running phase, by the releases before its quantum began (17 R404, R409). -/
def armedSeen (s : State) (g : Group) (word : Nat) : Bool :=
  match (viewOf s g).horizon with
  | none => isArmed s g.team word
  | some h => (s.team? g.team).any fun t => t.writes.any fun w => w.key == armKey word && w.seen (some h)

/-- The barrier word as the group sees it: the releases before its quantum began, with what it holds applied (12 R317, 17 R409). -/
def barView (c : Ctx) (word : Nat) : BarView :=
  let v := viewOf c.s c.g
  v.held.foldl (fun b e => b.after c.g.team word e)
    (.ofBytes (armedSeen c.s c.g word) (readLocs c.s { v with held := [] } (.slice c.g.team (8 * word)) 8))

/-- BARI (12 R317): the ILLEGAL cases are judged at issue. -/
def barInitBody (a b : BitVec 6) (c : Ctx) : UnitRes :=
  match barAt c a with
  | .error r => r
  | .ok w =>
    let n := c.g.getS b.toNat
    let v := barView c w
    if n = 0 ∨ 65535 < n.toNat then .trap causeIllegal c.f.mask 0
    else if v.armed ∧ v.count ≠ n.toNat ∧ v.arrived ≠ 0 then .trap causeIllegal c.f.mask 0
    else .done (emit c.s c.g.id (.barInit w n))

/-- BARI (R317). -/
def execBari (px : Option Modw) (a b : BitVec 6) (s : State) : Host.Outcome State Fault Refusal :=
  runUnit s (fun _ => { words := unitWords px, ss := [a.toNat, b.toNat], noMethod := true, region := true, quantum := true })
    (barInitBody a b)

/-- An arrival (12 R317): on an unarmed word the fragment parks until BARI arms it. -/
def arriveOp (thenWait : Bool) (px : Option Modw) (d a : BitVec 6) (s : State) : Host.Outcome State Fault Refusal :=
  runUnit s (fun _ => { words := unitWords px, ss := [d.toNat, a.toNat], noMethod := true, noHandler := true, path := true,
                        region := true, quantum := true, rel := streamMask px }) fun c =>
    match barAt c a with
    | .error r => r
    | .ok w => .done (emit c.s c.g.id (.barArrive w c.f.id d thenWait))

/-- BARA (R317). -/
def execBara (px : Option Modw) (d a : BitVec 6) (s : State) : Host.Outcome State Fault Refusal := arriveOp false px d a s

/-- BARAW (R317). -/
def execBaraw (px : Option Modw) (d a : BitVec 6) (s : State) : Host.Outcome State Fault Refusal := arriveOp true px d a s

/-! ### What a group waits for in Ephemeris mode (17 R404, R405) -/

/-- Quantum and grid-wide group id: the order of releases. -/
def releaseLe (a b : Nat × Nat) : Bool := decide (a.1 < b.1) || (a.1 == b.1 && decide (a.2 ≤ b.2))

/-- A release among others that stand in order: after those that come before it, and once. -/
def insertRelease (x : Nat × Nat) (l : List (Nat × Nat)) : List (Nat × Nat) :=
  (l.filter fun y => !(releaseLe x y)) ++ x :: l.filter fun y => !(releaseLe y x)

/-- The key of a location among the writes of a phase. -/
def phaseKey (l : Loc) : Nat := match l with | .mem k => k | .slice _ o => sliceKey o

/-- The locations that an effect writes: where each begins, and its bytes. -/
def Effect.places (e : Effect) : List (Loc × Nat) :=
  match e with
  | .store ps .. => ps.map fun p => (p.loc, p.bytes.length)
  | _ => match e.atomic? with | none => [] | some r => [(r.loc, r.ask.bytes)]

/-- The releases of other groups of its team that a group at a quantum has not seen, and that have written some of `n` bytes, in their order;
where the group holds a write of those bytes, only those that come after its own release. -/
def unseenReleases (s : State) (g : Group) (t : Team) (l : Logical) (at_ : Loc) (n : Nat) : List (Nat × Nat) :=
  let own := s.gridWideId g
  let held := (l.held.flatMap Effect.places).any fun p => overlaps p.1 p.2 at_ n
  let k := phaseKey at_
  (t.writes.filter fun w => decide (k ≤ w.key) && decide (w.key < k + n) && w.gid != own &&
    (if held then releaseLe (l.quantum, own) (w.quantum, w.gid) else decide (l.quantum ≤ w.quantum))).foldl
      (fun acc w => insertRelease (w.quantum, w.gid) acc) []

/-- A byte as the releases up to one leave it. -/
def releasedByte (s : State) (t : Team) (x : Nat × Nat) (l : Loc) : Byte :=
  match lastWrite t (phaseKey l) fun w => releaseLe (w.quantum, w.gid) x with
  | some w => w.val
  | none => match l with | .mem k => startByte s t k | .slice _ o => Config.sliceByte t.id o

/-- The quantum of the first release that the group has not seen which leaves a value that meets its condition (17 R405). -/
def firstMeet (s : State) (g : Group) (at_ : Loc) (n : Nat) (p : Nat → Bool) : Option Nat :=
  match s.team? g.team, g.logical, s.ephGrid g with
  | some t, some l, some _ =>
    ((unseenReleases s g t l at_ n).find? fun x => p (natOfBytes ((List.range n).map fun i => releasedByte s t x (at_.plus i)))).map Prod.fst
  | _, _, _ => none

/-- A fragment whose condition does not hold in its group's view parks; where a release that the group has not seen has met it, the park has
ended with that release (17 R405). -/
def parkOrGo (c : Ctx) (s : State) (met : Option Nat) (w : Wait) (wire : List (Nat × BitVec 12)) : UnitRes :=
  match met with
  | some q => .done (s.modGroup c.g.id fun g => g.wake q fun f => f.id == c.f.id)
  | none => .done (s.modGroup c.g.id fun g => g.modFrag c.f.id fun f => { f with wait := some w, wire := wire })

/-- The phase field of a barrier word has passed a token. -/
def wordPassed (token : Word) (x : Nat) : Bool := phasePassed (x / pow2 32) token

/-- BARW (R317). -/
def execBarw (px : Option Modw) (a b : BitVec 6) (s : State) : Host.Outcome State Fault Refusal :=
  runUnit s (fun _ => { words := unitWords px, ss := [a.toNat, b.toNat], noMethod := true, noHandler := true, path := true,
                        quantum := true }) fun c =>
    match barAt c a with
    | .error r => r
    | .ok w =>
      let token := c.g.getS b.toNat
      let at_ := Loc.slice c.g.team (8 * w)
      let seen := natOfBytes (readLocs c.s (viewOf c.s c.g) at_ 8)
      if armedSeen c.s c.g w ∧ wordPassed token seen = true then .done c.s
      else parkOrGo c c.s (if isArmed c.s c.g.team w then firstMeet c.s c.g at_ 8 (wordPassed token) else none) (.phase w token) []

/-! ### WAITV (12 R320, R321) -/

/-- The tier of a location; a slice is 0. -/
def locTier (l : Loc) : Nat := match l with | .mem k => keyTier k | .slice .. => 0

/-- WAITV (12 R320): one read for the whole fragment, then a watch when the value does not satisfy the relation. -/
def waitvBody (d : BitVec 6) (a : BitVec 5) (w : BitVec 1) (r : BitVec 4) (c : Ctx) : UnitRes :=
  let addr := c.g.getPair (pairOf a)
  let z := if w = 1 then 8 else 4
  let cmp : Dword := if w = 1 then c.g.getPair d.toNat else (c.g.getS d.toNat).setWidth 64
  match forLanes c.f.mask (checkLanes c .load [(0, addr, z)]) with
  | .bad x => x
  | .ok s l =>
    match l with
    | [] => .done s
    | x :: _ =>
      if (viewOf c.s c.g).broken s c.g.part x.2.2 z then .fail (logLanes c s [x]) causeMemerr c.f.mask addr
      else
        let sent := sendFlit s c.g.part x.2.2
        let s1 := sent.1
        let v := natOfBytes (readLocs s1 (viewOf c.s c.g) x.2.2 z)
        let holds := fun (v : Nat) => relHolds r.toNat (8 * z) v cmp.toNat
        if holds v then .done s1
        else parkOrGo c s1 (firstMeet s1 c.g x.2.2 z holds) (.watch x.2.2 addr z r cmp (locTier x.2.2 == 1) false c.f.pc) sent.2

/-- WAITV (R320). -/
def execWaitv (px : Option Modw) (d : BitVec 6) (a : BitVec 5) (w : BitVec 1) (r : BitVec 4) (s : State) :
    Host.Outcome State Fault Refusal :=
  runUnit s (fun _ => { words := unitWords px, ss := pairRegs a ++ (if w = 1 then [d.toNat, d.toNat + 1] else [d.toNat]),
                        noMethod := true, noHandler := true, path := true, quantum := true }) (waitvBody d a w r)

/-! ### FENCE and XFENCE (13 R335, R336) -/

/-- Whether a result is one that an acquire fence on some streams waits for (13 R335). -/
def fenceWaits (mask : BitVec 16) (o : Out) : Bool :=
  !o.landed && mask.getLsbD o.str.toNat && (match o.kind with | .load => true | .atom => true | .objcall => true | _ => false)

/-- A request of a group after a fence that joins some streams: in those streams it precedes what follows (13 R335). -/
def Request.join (gid : Nat) (mask : BitVec 16) (r : Request) : Request :=
  if r.group = some gid ∧ mask &&& r.streams ≠ 0 then { r with joined := r.joined ||| mask } else r

/-- An atomic in tier 3 that is still to be acknowledged, after such a fence (13 R331, R335). -/
def Out.join (mask : BitVec 16) (o : Out) : Out :=
  if o.kind == .atom && !o.flits.isEmpty && mask &&& o.streams != 0 then { o with joined := o.joined ||| mask } else o

/-- The streams of a fence are joined: atomics of the group on their way, and its tier-3 stores and atomics not acknowledged, precede what follows
in any of them (13 R326, R335).  One stream alone has nothing to join. -/
def joinStreams (s : State) (gid : Nat) (mask : BitVec 16) : State :=
  if mask &&& (mask - 1) = 0 then s else
  let s1 := s.mapRequests (Request.join gid mask)
  let each := fun (x : BitVec 4 × Nat × BitVec 12 × Dword) =>
    if mask.getLsbD x.1.toNat then
      x :: ((List.range 16).filter fun j => mask.getLsbD j && j != x.1.toNat).map fun j => (BitVec.ofNat 4 j, x.2)
    else [x]
  s1.modGroup gid fun g => { g with
    wire := (g.wire.flatMap each).eraseDups, frags := g.frags.map fun f => { f with outs := f.outs.map (Out.join mask) } }

/-- A fence of some streams (13 R335): MEMERR for a narrow store of one of them that met an error; an acquire or full fence waits for
the outstanding results of them in every fragment; and the streams are joined, the commits of PADDCs of them having been made (18 R415).  In Ephemeris mode only the MEMERR check acts (17 R409). -/
def fenceBody (waits : Bool) (mask : BitVec 16) (c : Ctx) : UnitRes :=
  match narrowTrap c (fun x => mask.getLsbD x.toNat) with
  | some r => r
  | none =>
    if (c.s.ephGrid c.g).isSome then .done c.s
    else if waits ∧ (c.g.frags.any fun f => f.outs.any (fenceWaits mask)) = true then .wait
    else if mask &&& (mask - 1) ≠ 0 ∧ (c.g.openCommits.any fun o => mask.getLsbD o.str.toNat) = true then .wait
    else .done (joinStreams c.s c.g.id mask)

/-- A fence unit: ILLEGAL in method code (11 R292); `waits` is its acquire side and `rel` its release side. -/
def fenceOp (waits rel : Bool) (px : Option Modw) (mask : BitVec 16) (s : State) : Host.Outcome State Fault Refusal :=
  runUnit s (fun _ => { words := unitWords px, noMethod := true, rel := if rel then mask else 0, far := farScope px }) (fenceBody waits mask)

/-- FENCE.ACQ (R335). -/
def execFenceAcq (px : Option Modw) (s : State) : Host.Outcome State Fault Refusal := fenceOp true false px (streamMask px) s

/-- FENCE.REL (R335). -/
def execFenceRel (px : Option Modw) (s : State) : Host.Outcome State Fault Refusal := fenceOp false true px (streamMask px) s

/-- FENCE.FULL (R335). -/
def execFenceFull (px : Option Modw) (s : State) : Host.Outcome State Fault Refusal := fenceOp true true px (streamMask px) s

/-- XFENCE.ACQ (R335). -/
def execXfenceAcq (px : Option Modw) (m : BitVec 16) (s : State) : Host.Outcome State Fault Refusal := fenceOp true false px m s

/-- XFENCE.REL (R335). -/
def execXfenceRel (px : Option Modw) (m : BitVec 16) (s : State) : Host.Outcome State Fault Refusal := fenceOp false true px m s

/-- XFENCE.FULL (R335). -/
def execXfenceFull (px : Option Modw) (m : BitVec 16) (s : State) : Host.Outcome State Fault Refusal := fenceOp true true px m s

end Sys2Proof.Machine
end

