-- ==== Sys2Proof/Machine/Waits.lean ====
section
/-!
DEFINITION. The landing of results and replies, the ends of waits, promotion and fusion (03 R81, R82; 05 R145; 06 R157; 11 R297;
12 R310, R319 to R322; 14 R354).
-/

namespace Sys2Proof.Machine

/-! ### Landing (03 R82, 11 R297, 12 R310) -/

/-- A piece of a commit that cannot be made: out of reach, or a part of a word with an error (08 R223, R224). -/
def lostPiece (s : State) (part : Nat) (o : Out) : Option Piece :=
  o.commit.find? fun p => (hasError s p.loc && !(coversWord o.commit p.loc)) || !(reachable s part p.loc)

/-- The commit of a PADDC is made, one unit, before its status lands (18 R413, R415).  One that cannot be made whole writes nothing and is
logged, and the landing traps MEMERR and writes no status (08 R223; DEDUCED, notes/assumptions/103.md). -/
def makeCommit (s : State) (gid : Nat) (mask : Word) (o : Out) : State :=
  if o.commit.isEmpty then s
  else
    let close := fun (t : Option TrapInfo) (s : State) => s.modGroup gid fun g => g.mapOuts fun x => if x.id = o.id then { x with commit := [], trap := t } else x
    match s.group? gid with
    | none => s
    | some g => match lostPiece s g.part o with
      | none => close o.trap (storeAll s gid 0 o.str o.pc mask o.commit)
      | some p => close (some { cause := causeMemerr, mask := mask, addr := p.addr, pc := o.pc, resume := 0, noEffect := false })
          (logAccess s g.part p.loc p.addr o.pc (requesterOf s g))

/-- Lands a result of a fragment when it has come and is of a kind; the trap of its landing is taken before the next unit issues.  One that an
exit left behind is discarded as it returns (06 R169, R170). -/
def landResult (s : State) (gid fid oid : Nat) (p : OutKind → Bool) : State :=
  match s.group? gid with
  | none => s
  | some g =>
    match (g.frag? fid).bind fun f => (f.outs.find? fun o => o.id == oid).map fun o => (f, o) with
    | none =>
      match g.strays.find? fun o => o.id == oid with
      | none => s
      | some o =>
        if o.hasCome && p o.kind then
          (makeCommit s gid 0 o).modGroup gid fun g => { g with strays := g.strays.filter fun x => x.id != oid }
        else s
    | some (f, o) =>
      if o.hasCome && p o.kind then
        let s1 := makeCommit s gid f.mask o
        let g1 := (s1.group? gid).getD g
        match landOut g1 (((g1.frag? fid).bind fun f => f.outs.find? fun x => x.id == oid).getD o) with
        | (g1, none) => s1.setGroup g1
        | (g1, some t) => deliverTrap (s1.setGroup g1) gid t
      else s

/-- RESULT_LANDING (R82): the result of a load or of another long-latency instruction that is no object call and no atomic. -/
def execResultLanding (g f id : Nat) (s : State) : Host.Outcome State Fault Refusal :=
  .next (landResult s g f id fun k => k != .objcall && k != .atom)

/-- OBJCALL_REPLY_LANDING (R297): every reply has come; values and statuses are written together, and OBJFAULT follows a status of 0x80 or
above. -/
def execObjcallReplyLanding (g f id : Nat) (s : State) : Host.Outcome State Fault Refusal :=
  .next (landResult s g f id fun k => k == .objcall)

/-- ATOM_REPLY_LANDING (R310): every reply has come; the words are written together, or MEMERR is raised. -/
def execAtomReplyLanding (g f id : Nat) (s : State) : Host.Outcome State Fault Refusal :=
  .next (landResult s g f id fun k => k == .atom)

/-- Whether a request that a quantum of the team before `q` released is still to be performed: at the start of quantum `q` a group sees every
release of the quanta before it (17 R404, R406; DEDUCED, notes/assumptions/21.md). -/
def teamAtomics (s : State) (team q : Nat) : Bool :=
  (openRequests s).any fun r => (r.group.bind s.group?).any (fun g => g.team == team) && r.time.any fun x => decide (x.1 < q)

/-- A group starts its quantum only when every other group of its team has released the one before it, or is parked, or has exited, and what
they released has been performed (17 R404). -/
def startsOk (s : State) (g : Group) : Bool :=
  match g.logical with
  | none => true
  | some l => !(teamAtomics s g.team l.quantum) && s.groups.all fun h => h.team != g.team || h.role != .ordinary || h.id == g.id || h.exited || parkedUnmet s h ||
      (match h.logical with | none => true | some k => decide (l.quantum ≤ k.quantum))

/-- A fragment's wait ends. -/
def endWait (s : State) (gid fid : Nat) : State :=
  s.modGroup gid fun g => g.modFrag fid fun f => { f with wait := none, ready := s.tick, promoted := none }

/-- Whether the fragments of a group can go on where they are: the group's team is on a core, or its batch runs: until a swap begins, and one whose
commit has begun to its end (11 R300). -/
def resident (s : State) (g : Group) : Bool :=
  match g.role with
  | .service h _ => partWorks s (partOfHome s h) || (batchOf s g).any Batch.commits
  | .ordinary => (s.coreOf g).isSome

/-- Ends a wait of some kind whose condition holds, on a resident group; a method's QWAIT among them (11 R294). -/
def releaseWait (s : State) (gid fid : Nat) (p : Wait → Bool) : State :=
  match s.group? gid with
  | none => s
  | some g =>
    match (g.frag? fid).bind Frag.wait with
    | none => s
    | some w => if p w && waitMet s g w && !g.ended && resident s g then endWait s gid fid else s

/-- MWAIT_RELEASE (R354). -/
def execMwaitRelease (g f : Nat) (s : State) : Host.Outcome State Fault Refusal :=
  .next (releaseWait s g f fun w => match w with | .batch _ => true | _ => false)

/-- BARRIER_WAIT_RELEASE (R319). -/
def execBarrierWaitRelease (g f : Nat) (s : State) : Host.Outcome State Fault Refusal :=
  .next (releaseWait s g f fun w => match w with | .phase .. => true | _ => false)

/-- WAITV_RELEASE (R322): a write has satisfied the watch. -/
def execWaitvRelease (g f : Nat) (s : State) : Host.Outcome State Fault Refusal :=
  .next (releaseWait s g f fun w => match w with | .watch .. => true | _ => false)

/-- TIER1_WAITV_POLL (R321): a watched tier-1 word is read again; one that cannot be reached, or that holds an error, traps MEMERR. -/
def execTier1WaitvPoll (gid fid : Nat) (s : State) : Host.Outcome State Fault Refusal :=
  .next (match s.group? gid with
    | none => s
    | some g =>
      match g.frag? fid with
      | none => s
      | some f =>
        match f.wait with
        | some (.watch l a n r c true false pc) =>
          if broken s g.part l then
            let s1 := (logAccess s g.part l a pc (requesterOf s g)).modGroup gid fun g => g.modFrag fid fun f => { f with wait := none, pc := pc }
            takeTrap s1 gid fid { cause := causeMemerr, mask := f.mask, addr := a, pc := pc, resume := pc, noEffect := true }
          else if relHolds r.toNat (8 * n) (natOfBytes (readLocs s (nowView s g) l n)) (c.toNat % pow2 (8 * n)) then
            s.modGroup gid fun g => g.modFrag fid fun f => { f with wait := some (.watch l a n r c true true pc) }
          else s
        | _ => s)

/-! ### Promotion (05 R145) -/

/-- Whether a service group is parked by a replayable fault of one of its fragments (11 R298). -/
def parksMethod (g : Group) : Bool := g.role != .ordinary && g.frags.any Frag.stalled

/-- Whether a group has come to a quantum in which a fragment whose park has ended goes on (17 R405). -/
def Group.reached (g : Group) (f : Frag) : Bool := g.logical.all fun l => decide (f.after < l.quantum)

/-- Whether a fragment could issue as far as its own state says: its group is resident, it does not wait, and nothing holds it. -/
def couldIssue (s : State) (g : Group) (f : Frag) : Bool :=
  resident s g && !g.exited && g.trapWait.isNone && f.wait.isNone && !(parksMethod g) && !(g.atJoin f) && !f.stopped && !(g.holds f) && !g.ended &&
    g.reached f && startsOk s g

/-- FRAGMENT_PROMOTION (R145): a fragment that has been ready for 1,024 cycles without issuing is promoted. -/
def execFragmentPromotion (gid fid : Nat) (s : State) : Host.Outcome State Fault Refusal :=
  .next (s.modGroup gid fun g => match g.frag? fid with
    | none => g
    | some f => if couldIssue s g f && !f.held && f.promoted.isNone then g.setFrag { f with promoted := some s.tick } else g)

/-! ### Fusion (06 R157) -/

/-- Whether a split has come together: all its fragments wait at a join, and no split lies inside it; none is stopped or held by a handler, whose
own fragments fuse like any others (16 R385).  A unit whose effect is held to the quantum's end may still park its fragment (17 R404). -/
def cameTogether (g : Group) (sp : Split) : Bool :=
  let mine := g.frags.filter fun f => f.split == sp.id
  !(g.splits.any fun x => x.parent == sp.id) && !mine.isEmpty && g.trapWait.isNone && !g.ended &&
  mine.all fun f => g.atJoin f && !(g.holds f) && !f.stopped

/-- Whether a split may dissolve: it has come together, and the fragments at its own join have landed every result (06 R157). -/
def canFuse (g : Group) (sp : Split) : Bool :=
  cameTogether g sp && g.frags.all fun f => f.split != sp.id || f.pc != sp.join || f.outs.all Out.landed

/-- FRAGMENT_FUSION (R157): the fragments that wait at the split's own join become one, with a new region; the others go to the parent. -/
def execFragmentFusion (gid split : Nat) (s : State) : Host.Outcome State Fault Refusal :=
  .next (match s.group? gid with
    | none => s
    | some g =>
      match g.splits.find? fun x => x.id == split with
      | none => s
      | some sp =>
        if canFuse g sp = false then s
        else
          let mine := g.frags.filter fun f => f.split == split && f.pc == sp.join
          let (id, s1) := s.fresh
          let rest := (g.frags.filter fun f => !(f.split == split && f.pc == sp.join)).map fun f =>
            if f.split = split then { f with split := sp.parent } else f
          let splits := g.splits.filter fun x => !(x.id == split)
          match mine with
          | [] => s.setGroup { g with frags := rest, splits := splits }
          | _ =>
            let f : Frag := { freshFrag id (mine.foldl (fun m f => m ||| f.mask) 0) sp.join s.tick with
              split := sp.parent, pending := mine.flatMap Frag.pending }
            s1.setGroup (newRegion { g with frags := rest ++ [f], splits := splits } f sp.join))

end Sys2Proof.Machine
end

