-- ==== Sys2Proof/Machine/SaveArea.lean ====
section
/-!
DEFINITION. The group save record and the team save area: their bytes, the checks of a restore, and what a restore reads back
(03 R67 to R69; 10 R254; 16 R382, R393, R394).
-/

namespace Sys2Proof.Machine

/-! ### The bytes of a save (03 R67, R68; 16 R393) -/

/-- Zero bytes. -/
def zeros (n : Nat) : List Byte := List.replicate n 0

/-- Words as bytes, lowest byte first. -/
def wordBytes (ws : List Word) : List Byte := ws.flatMap fun w => bytesOfNat 4 w.toNat

/-- The image of a tile handle (10 R254). -/
def handleImage (bound : Bool) (h : Handle) : List Byte :=
  let state := h.swizzle.toNat + (if bound then 16 else 0) + (if h.failed then 32 else 0) + (if h.labelRows then 64 else 0)
  bytesOfNat 8 h.record.toNat ++ bytesOfNat 4 h.dest.toNat ++ [h.format] ++ bytesOfNat 1 state ++ [h.failure, 0] ++
    bytesOfNat 8 h.failAddr.toNat ++ wordBytes [h.delivered, h.position, h.lastFeed] ++ zeros 28

/-- The image of tile handle `n`: zero when it has never been bound or stands beyond the demand, and what a restore left there when that was
unbound (03 R67, R69; 10 R254). -/
def handleBytes (g : Group) (n : Nat) : List Byte :=
  match g.handle? n with
  | some h => handleImage true h
  | none => ((findBy Handle.num g.loose n).map (handleImage false)).getD (zeros 64)

/-- The 64-byte header of a group save record (03 R67): the region is that of the fragment that holds the lowest lane. -/
def groupHeader (class_ : Nat) (g : Group) : List Byte :=
  let r := match lowestFrag g.frags with | none => 0 | some f => f.region.entry
  bytesOfNat 2 1 ++ bytesOfNat 2 g.granules ++ bytesOfNat 2 g.tiles ++ bytesOfNat 1 g.handleN ++ [0] ++ bytesOfNat 2 g.window ++ zeros 2 ++
    bytesOfNat 4 (class_ % 4 + if g.handler.isSome then 4 else 0) ++ bytesOfNat 8 r.toNat ++ bytesOfNat 4 g.regions.toNat ++ zeros 4 ++
    bytesOfNat 8 g.gang.toNat ++ bytesOfNat 8 g.rngkey.toNat ++ bytesOfNat 4 g.smscale.toNat ++ zeros 12

/-- The opaque split table block of a group in save number `tag` (03 R67). -/
def splitBlock (tag num : Nat) : List Byte := (List.range 512).map fun i => Config.splitByte tag num i

/-- A group save record (03 R67). -/
def groupBytes (class_ tag : Nat) (g : Group) : List Byte :=
  groupHeader class_ g ++ splitBlock tag g.num ++ wordBytes ((List.range 64).map g.getS) ++ wordBytes ((List.range 16).map g.getP) ++
    ((List.range 16).flatMap fun n => if n < g.handleN then handleBytes g n else zeros 64) ++
    wordBytes ((List.range (256 * g.granules)).map fun k => sget 0 g.v k) ++
    wordBytes ((List.range (1024 * g.tiles)).map fun k => sget 0 g.acc k)

/-- Bytes of a group save record Z, and of a stage block Y (16 R393). -/
def recordSize (g t : Nat) : Nat := 0x780 + g * 0x400 + t * 0x1000
def stageSize (g : Nat) : Nat := g * 0x400 + 0x140

/-- A stage block (16 R393). -/
def stageBytes (g : Group) : List Byte :=
  wordBytes ((List.range (256 * g.granules)).map fun k => sget 0 g.stage.v k) ++ wordBytes ((List.range 64).map fun n => sget 0 g.stage.s n) ++
    wordBytes ((List.range 16).map fun n => if n = 0 then 0xFFFFFFFF#32 else sget 0 g.stage.p n)

/-- A trap record (16 R382). -/
def trapBytes (t : TrapRecord) : List Byte :=
  wordBytes [t.cause, t.mask] ++ bytesOfNat 8 t.addr.toNat ++ bytesOfNat 8 t.pc.toNat ++ bytesOfNat 8 t.resume.toNat ++
    bytesOfNat 8 t.regionEntry.toNat ++ wordBytes [t.regionCount, t.flags, t.window] ++ zeros 12

/-- Where the slice image starts, and the bytes of the whole area, for g groups of G granules and T tiles (16 R393). -/
def sliceAt (g gran tiles : Nat) : Nat := (0x900 + g * (recordSize gran tiles + stageSize gran) + 127) / 128 * 128
def areaSize (r : LaunchRecord) (sliceLen : Nat) : Nat := sliceAt r.groups.toNat r.granules r.accTiles + sliceLen

/-- The relation words rel1 to rel7; an unloaded slot is zero (16 R393). -/
def relBytes (t : Team) : List Byte :=
  (List.range 7).flatMap fun k => bytesOfNat 16 (((t.rels.find? fun x => x.1 == k + 1).map Prod.snd).getD 0).toNat

/-- The header of a team save area (16 R393). -/
def areaHeader (d : Grid) (t : Team) (ready : Bool) : List Byte :=
  bytesOfNat 2 1 ++ bytesOfNat 1 d.record.groups.toNat ++ [0] ++ bytesOfNat 4 t.sliceLen ++ bytesOfNat 4 d.number.toNat ++ bytesOfNat 4 t.num ++
    bytesOfNat 4 d.record.poolWord.toNat ++ bytesOfNat 4 ((if ready then 1 else 0) + if d.phase.isSome then 2 else 0) ++
    bytesOfNat 8 (areaSize d.record t.sliceLen) ++ zeros 32

/-- The team save area up to the slice image: header, relation words, arm mask, trap records, group save records and stage blocks. -/
def areaBytes (d : Grid) (t : Team) (gs : List Group) (tag : Nat) (ready : Bool) : List Byte :=
  let head := areaHeader d t ready ++ relBytes t ++ bytesOfNat 2 t.arm.toNat ++ zeros 14 ++ zeros 64 ++
    (gs.flatMap fun g => trapBytes g.trap) ++ zeros (64 * (32 - gs.length)) ++
    (gs.flatMap fun g => groupBytes d.record.priority.toNat tag g) ++ gs.flatMap stageBytes
  head ++ zeros (sliceAt d.record.groups.toNat d.record.granules d.record.accTiles - head.length)

/-- Writes a team save area at a tier-0 address (16 R393). -/
def saveArea (s : State) (at_ : Nat) (d : Grid) (t : Team) (gs : List Group) (ready : Bool) : State :=
  let bytes := areaBytes d t gs s.free ready
  let image := (List.range t.sliceLen).map (sliceByte t)
  writeLoc (writeLoc { s with free := s.free + 1 } (.mem at_) bytes) (.mem (at_ + bytes.length)) image

/-! ### The checks of a restore (03 R69, 16 R394) -/

/-- The address of a group's record in a save area. -/
def recordAt (at_ : Nat) (d : Grid) (num : Nat) : Nat := at_ + 0x900 + num * recordSize d.record.granules d.record.accTiles

/-- The check of the header and of what follows it: version, reserved fields, and g, the slice size, the grid, the team, the pool word and the
size of the area as the grid has them (00 R5). -/
def headerOk (s : State) (at_ : Nat) (d : Grid) (t : Team) : Bool :=
  let h := readKeys s at_ 0x100
  fieldOf h 0 2 == 1 && fieldOf h 2 1 == d.record.groups.toNat && fieldOf h 3 1 == 0 && fieldOf h 4 4 == t.sliceLen &&
    fieldOf h 8 4 == d.number.toNat && fieldOf h 0xC 4 == t.num && fieldOf h 0x10 4 == d.record.poolWord.toNat &&
    decide (fieldOf h 0x14 4 < 4) && fieldOf h 0x18 8 == areaSize d.record t.sliceLen && allZero h 0x20 32 && allZero h 0xB2 78

/-- The reserved fields of the image of a tile handle (00 R5, 10 R254). -/
def handleOk (s : State) (at_ n : Nat) : Bool :=
  let h := readKeys s (at_ + 64 * n) 64
  bitsOf (fieldOf h 0xD 1) 7 7 == 0 && fieldOf h 0xF 1 == 0 && allZero h 0x24 28

/-- The check of a group save record: version, G, T and H, the reserved fields, and the split table block (03 R69). -/
def recordOk (s : State) (at_ tag : Nat) (g : Group) : Bool :=
  let h := readKeys s at_ 64
  fieldOf h 0 2 == 1 && fieldOf h 2 2 == g.granules && fieldOf h 4 2 == g.tiles && fieldOf h 6 1 == g.handleN && fieldOf h 7 1 == 0 &&
    fieldOf h 0xA 2 == 0 && fieldOf h 0xC 4 / 8 == 0 && fieldOf h 0x1C 4 == 0 && allZero h 0x34 12 &&
    readKeys s (at_ + 0x40) 512 == splitBlock tag g.num && (List.range 16).all (handleOk s (at_ + 0x380))

/-! ### Reading registers back (03 R69) -/

/-- Words at an address as sparse storage: zero words are not listed. -/
def wordsAt (s : State) (at_ n : Nat) : Regs :=
  (List.range n).filterMap fun k =>
    let w := BitVec.ofNat 32 (natOfBytes (readKeys s (at_ + 4 * k) 4))
    if w = 0 then none else some (k, w)

/-- A tile handle as its image gives it, with its bound bit, and none for an image that is all zero; whether its record has labels is not in the image, and is kept. -/
def handleAt (s : State) (at_ : Nat) (g : Group) (bound : Bool) (n : Nat) : Option Handle :=
  let bs := readKeys s (at_ + 64 * n) 64
  let f := fieldOf bs
  let st := f 0xD 1
  if g.handleN ≤ n ∨ (bitsOf st 4 4 == 1) ≠ bound ∨ allZero bs 0 64 then none
  else some
    { num := n, record := BitVec.ofNat 64 (f 0 8), dest := BitVec.ofNat 32 (f 8 4), format := BitVec.ofNat 8 (f 0xC 1),
      swizzle := BitVec.ofNat 4 st, labelRows := bitsOf st 6 6 == 1, hasLabels := ((g.handle? n).map Handle.hasLabels).getD false,
      failed := bitsOf st 5 5 == 1, failure := BitVec.ofNat 8 (f 0xE 1), failAddr := BitVec.ofNat 64 (f 0x10 8),
      delivered := BitVec.ofNat 32 (f 0x18 4), position := BitVec.ofNat 32 (f 0x1C 4), lastFeed := BitVec.ofNat 32 (f 0x20 4) }

/-- The registers of a group as its save record holds them; the p0 word is ignored. -/
def restoreRegs (s : State) (at_ : Nat) (g : Group) : Group :=
  { g with
    s := wordsAt s (at_ + 0x240) 64
    p := (wordsAt s (at_ + 0x340) 16).filter fun x => x.1 != 0
    handles := (List.range 16).filterMap (handleAt s (at_ + 0x380) g true)
    loose := (List.range 16).filterMap (handleAt s (at_ + 0x380) g false)
    v := wordsAt s (at_ + 0x780) (256 * g.granules)
    acc := wordsAt s (at_ + 0x780 + 0x400 * g.granules) (1024 * g.tiles) }

/-- The slice of a team as its image holds it. -/
def restoreSlice (s : State) (at_ : Nat) (d : Grid) (t : Team) : Team :=
  let base := at_ + sliceAt d.record.groups.toNat d.record.granules d.record.accTiles
  { t with slice := (List.range t.sliceLen).map fun i => (i, readKey s (base + i)), sliceErr := [] }

end Sys2Proof.Machine
end

