-- ==== Sys2Proof/Machine/Orrery.lean ====
section
/-!
DEFINITION. Orrery, the distributor: taking records and fences, placing teams and gang sets, retiring grids, and the eviction and relaunch of
teams (01 R11 to R14; 05 R122, R123, R128, R131 to R135, R148 to R150; 08 R209; 16 R393, R394).
-/

namespace Sys2Proof.Machine

/-! ### What a core holds (01 R14; 05 R133, R149) -/

/-- Three resources of a core: groups, vector granules and accumulator tiles; tile handles never limit placement (05 R133). -/
structure Room where
  groups : Nat
  grans  : Nat
  tiles  : Nat
  deriving DecidableEq, Repr

/-- The demand of one team of a record. -/
def teamRoom (r : LaunchRecord) : Room :=
  { groups := r.groups.toNat, grans := r.groups.toNat * r.granules, tiles := r.groups.toNat * r.accTiles }

/-- Resource by resource: the sum, the multiple, the larger, and whether all of one lies within another. -/
def Room.add (a b : Room) : Room := { groups := a.groups + b.groups, grans := a.grans + b.grans, tiles := a.tiles + b.tiles }
def Room.times (a : Room) (n : Nat) : Room := { groups := n * a.groups, grans := n * a.grans, tiles := n * a.tiles }
def Room.max (a b : Room) : Room := { groups := Nat.max a.groups b.groups, grans := Nat.max a.grans b.grans, tiles := Nat.max a.tiles b.tiles }
def Room.le (a b : Room) : Bool := decide (a.groups ≤ b.groups) && decide (a.grans ≤ b.grans) && decide (a.tiles ≤ b.tiles)

/-- What a core has under a pool word (01 R14). -/
def coreRoom (w : Word) : Room := { groups := 1024, grans := poolGranules w, tiles := poolTiles w }

/-- The teams resident on a core, and those evicted from it. -/
def teamsOn (s : State) (core : Nat) : List Team := s.teams.filter fun t => t.place == .core core
def evictedFrom (s : State) (core : Nat) : List Team := s.teams.filter fun t => match t.place with | .evicted c _ _ => c == core | _ => false

/-- The launch record of a team's grid. -/
def recordOf (s : State) (t : Team) : Option LaunchRecord := (s.grid? t.grid).map Grid.record

/-- A core's use by some teams. -/
def usedBy (s : State) (ts : List Team) : Room :=
  ts.foldl (fun a t => match recordOf s t with | none => a | some r => a.add (teamRoom r)) { groups := 0, grans := 0, tiles := 0 }

/-- The relaunch reserve of a core: by resource, the largest demand of one team of the grids with a team resident on it or evicted from it
(05 R149). -/
def reserveOf (s : State) (core : Nat) : Room :=
  (teamsOn s core ++ evictedFrom s core).foldl (fun a t => match recordOf s t with | none => a | some r => a.max (teamRoom r))
    { groups := 0, grans := 0, tiles := 0 }

/-- Whether a core's split admits a record: it holds no team, or its split is the record's pool word (01 R14). -/
def splitAdmits (s : State) (ts : List Team) (r : LaunchRecord) : Bool :=
  ts.all fun t => (recordOf s t).all fun x => x.poolWord == r.poolWord

/-- Whether a core takes `n` new teams of a record, one after another, each leaving the relaunch reserve free as it stood before it
(05 R133, R149). -/
def coreTakesNew (s : State) (core : Nat) (r : LaunchRecord) (n : Nat) : Bool :=
  let ts := teamsOn s core
  let d := teamRoom r
  let keep := if n ≤ 1 then reserveOf s core else (reserveOf s core).max d
  splitAdmits s ts r && (((usedBy s ts).add (d.times n)).add keep).le (coreRoom r.poolWord)

/-- How many teams of a record a core takes now, up to `n`. -/
def coreCan (s : State) (core : Nat) (r : LaunchRecord) : Nat → Nat
  | 0 => 0
  | n + 1 => if coreTakesNew s core r (n + 1) then n + 1 else coreCan s core r n

/-- The cores of a cluster, and of a partition. -/
def coresOf (cluster : Nat) : List Nat := (List.range 4).map fun k => 4 * cluster + k
def partCores (p : Part) : List Nat := p.clusters.flatMap coresOf

/-- How many teams of a record some cores take now, up to `n` on each. -/
def coresCan (s : State) (cores : List Nat) (r : LaunchRecord) (n : Nat) : Nat := (cores.map fun c => coreCan s c r n).sum

/-- The FIFO places that the handles of a team's groups are bound to on a core (10 R274). -/
def fifosOf (s : State) (t : Team) (core : Nat) : List Fifo :=
  s.fifos.filter fun f => f.core == core && (match f.bound with | none => false | some (g, _) => (s.group? g).any fun x => x.team == t.id)

/-- Whether the FIFOs of a team's streams are free on a core, or are its own there (10 R274). -/
def fifosFit (s : State) (t : Team) (core : Nat) : Bool :=
  match t.place with
  | .evicted from_ _ _ => (fifosOf s t from_).all fun f => match f.bound with
    | none => true
    | some (g, h) => from_ == core || (fifoFree s core f.num g h && !(fifoInUse s core f.num g))
  | _ => true

/-- Whether a core can take a relaunch; the reserve does not constrain it (05 R149). -/
def coreTakesBack (s : State) (core : Nat) (without : List Team) (t : Team) : Bool :=
  let ts := (teamsOn s core).filter fun x => !(without.any fun y => y.id == x.id)
  match recordOf s t with
  | none => false
  | some r => splitAdmits s ts r && ((usedBy s ts).add (teamRoom r)).le (coreRoom r.poolWord) && fifosFit s t core

/-- The first team of the relaunch queue that some core of the partition can take (05 R149). -/
def firstRelaunch (s : State) (p : Part) : Option Team :=
  (p.relaunch.filterMap s.team?).find? fun t => (partCores p).any fun c => coreTakesBack s c [] t

/-! ### Placing a team (01 R14; 03 R60; 05 R122, R123, R135; 08 R209) -/

/-- The slice size of a team (08 R209). -/
def sliceBytesOf (r : LaunchRecord) : Nat :=
  let sp := poolSp r.poolWord * 262144
  16 * (sp * (r.groups.toNat * r.granules) / (poolGranules r.poolWord * 16))

/-- The gang register at group start of group `j` of the team of rank `rank` in a set of `n` teams (05 R135). -/
def gangStart (n rank j : Nat) : Dword :=
  if n < 2 then 0
  else BitVec.ofNat 64 (n + 8 * rank + ((List.range n).map fun k => (32 * k + j) * pow2 (8 + 8 * k)).sum)

/-- The groups of the teams on a core.  One that has exited keeps its seat until its team leaves, although it is resident no longer (01 R11;
DESIGN CHOICE, notes/assumptions/83.md). -/
def groupsOn (s : State) (core : Nat) : List Group := s.groups.filter fun g => s.coreOf g == some core

/-- The quadrant that holds the fewest groups, the lowest number winning ties (05 R123); groups that have exited count while their team
stays (DESIGN CHOICE, notes/assumptions/83.md). -/
def quadrantFor (gs : List Group) : Nat :=
  let n := fun (q : Nat) => (gs.filter fun g => g.quadrant == q).length
  [1, 2, 3].foldl (fun best q => if n q < n best then q else best) 0

/-- The slot that a group gets: the lowest of the core's 1,024 that is free.  Which of them, the spec does not say (01 R11; 05 R145; 08 R221; DESIGN
CHOICE, notes/assumptions/106.md). -/
def slotFor (gs : List Group) : Nat := ((List.range 1024).find? fun k => !(gs.any fun g => g.slot == k)).getD 0

/-- Seats the groups of a team on its core: quadrant, slot and age, in ascending group order (05 R123, R145). -/
def seatGroups (s : State) (core : Nat) (ids : List Nat) : State :=
  ids.foldl (fun s id =>
    let others := (groupsOn s core).filter fun g => !(ids.contains g.id) || decide (g.id < id)
    let (age, s1) := s.fresh
    s1.modGroup id fun g => { g with quadrant := quadrantFor others, slot := slotFor others, age := age }) s

/-- A group as it starts (03 R60, R62 to R65; 05 R135; 06 R153, R165; 17 R403). -/
def startGroup (s : State) (d : Grid) (team j gang : Nat) (rank : Nat) : State :=
  let (id, s1) := s.fresh
  let (fid, s2) := s1.fresh
  let r := d.record
  let g0 : Group := { blankGroup id d.part .ordinary with
    team := team, num := j, granules := r.granules, tiles := r.accTiles, handleN := r.tDemand.toNat, gang := gangStart gang rank j
    logical := d.phase.map fun _ => { quantum := 1, start := 0, retired := 0, held := [], ended := false, endPc := 0, endFrag := 0 } }
  let f := freshFrag fid 0xFFFFFFFF#32 r.entry s.tick
  { s2 with groups := s2.groups ++ [newRegion { g0 with frags := [f] } f r.entry] }

/-- Places the next team of a grid on a core, as one of rank `rank` in a set of `n` that begins at team `first`. -/
def placeTeam (s : State) (gid core first n rank : Nat) : State :=
  match s.grid? gid with
  | none => s
  | some d =>
    let (tid, s1) := s.fresh
    let t : Team :=
      { id := tid, part := d.part, grid := gid, num := d.next, place := .core core, setFirst := first, setSize := n, rank := rank, slice := [],
        sliceLen := sliceBytesOf d.record, arm := 0, rels := [], launched := [], retired := [], chosen := none, saveTag := 0, writes := [] }
    let s2 : State := { s1 with teams := s1.teams ++ [t] }
    let s3 := (List.range d.record.groups.toNat).foldl (fun s j => startGroup s d tid j n rank) s2
    let ids := (s3.groups.filter fun g => g.team == tid && g.role == .ordinary).map Group.id
    (seatGroups s3 core ids).modGrid gid fun d => { d with next := d.next + 1 }

/-! ### Phases (17 R400) -/

/-- The teams of the next phase of an Ephemeris grid (17 R400). -/
def phaseTeams (d : Grid) : Nat := match d.phase with | none => 0 | some ph => min ph.width (d.teams - d.next)

/-- The size of a grid's next gang set, when some cluster can hold it: gang pref, else gang fall, or what remains (05 R134). -/
def setSizeOf (s : State) (p : Part) (d : Grid) : Option Nat :=
  let can := fun (n : Nat) => p.clusters.any fun c => decide (n ≤ coresCan s (coresOf c) d.record n)
  let n := if can d.record.gangPref.toNat then d.record.gangPref.toNat else if can d.record.gangFall.toNat then d.record.gangFall.toNat else 0
  if n = 0 then none else some (min n (d.teams - d.next))

/-- One of some cores or clusters, by a free value (05 R123). -/
def pickOne (s : State) (l : List Nat) : Option Nat := l[Config.placeChoice s.free % Nat.max 1 l.length]?

/-- Places one team of a phase on a core that takes it; which of them is open (05 R123). -/
def placeAny (s : State) (cores : List Nat) (d : Grid) (first n rank : Nat) : Option State :=
  match pickOne s (cores.filter fun c => coreTakesNew s c d.record 1) with
  | none => none
  | some c => some (placeTeam { s with free := s.free + 1 } d.id c first n rank)

/-- Places the teams of a gang set on some cores, from rank `k` on. -/
def placeSet (cores : List Nat) (d : Grid) (first n : Nat) : Nat → Nat → State → Option State
  | 0, _, s => some s
  | left + 1, k, s => (placeAny s cores d first n k).bind (placeSet cores d first n left (k + 1))

/-- Places `left` teams of a phase, one by one or in gang sets of one cluster each (05 R134, 17 R400); none when they do not all fit. -/
def placePhase (p : Part) (gid : Nat) : Nat → Nat → State → Option State
  | 0, _, s => some s
  | _ + 1, 0, s => some s
  | fuel + 1, left + 1, s =>
    match s.grid? gid with
    | none => none
    | some d =>
      if d.record.gangPref = 0 then (placeAny s (partCores p) d d.next 1 0).bind (placePhase p gid fuel left)
      else match setSizeOf s p d with
        | none => none
        | some m =>
          let n := min m (left + 1)
          let cl := p.clusters.filter fun c => decide (n ≤ coresCan s (coresOf c) d.record n)
          match pickOne s cl with
          | none => none
          | some c => (placeSet (coresOf c) d d.next n n 0 { s with free := s.free + 1 }).bind (placePhase p gid fuel (left + 1 - n))

/-- The placement of a grid's next phase, when all its teams fit. -/
def nextPhase (s : State) (p : Part) (d : Grid) : Option State := placePhase p d.id (phaseTeams d) (phaseTeams d) s

/-! ### Which grid places next (05 R131, R133, R134) -/

/-- Whether Orrery places teams of a partition (16 R389). -/
def placing (p : Part) : Bool := p.running && p.tier == .run

/-- Whether every team of the grids taken earlier from a grid's queue has been placed, those of saved contexts among them (05 R131). -/
def earlierPlaced (s : State) (d : Grid) : Bool :=
  s.allGrids.all fun x => !(x.part == d.part && x.queue == d.queue && !x.retired && decide (x.id < d.id)) || x.next == x.teams

/-- Whether the next team, gang set or phase of a grid can be placed now. -/
def gridFits (s : State) (p : Part) (d : Grid) : Bool :=
  match d.phase with
  | some ph => !ph.running && (nextPhase s p d).isSome
  | none =>
    if d.record.gangPref = 0 then (partCores p).any fun c => coreTakesNew s c d.record 1
    else (setSizeOf s p d).isSome

/-- Grids of a partition with teams to place, in whose queue every earlier grid has been placed. -/
def pendingGrids (s : State) (p : Part) : List Grid :=
  s.grids.filter fun d => d.part == p.id && !d.retired && decide (d.next < d.teams) && earlierPlaced s d

/-- A grid comes before another: a lower class, or accepted earlier (05 R133). -/
def comesBefore (a b : Grid) : Bool :=
  decide (a.record.priority.toNat < b.record.priority.toNat) ||
  (a.record.priority == b.record.priority && a.number != b.number && seqLe a.number b.number)

/-- Whether a grid is the one that Orrery places from next: no relaunch fits, it fits, and no other that fits comes before it; one that fits
nowhere holds back none (05 R133; DESIGN CHOICE, notes/assumptions/83.md). -/
def placesNext (s : State) (p : Part) (d : Grid) : Bool :=
  let ds := pendingGrids s p
  placing p && (firstRelaunch s p).isNone && ds.any (fun x => x.id == d.id) && gridFits s p d &&
    !(ds.any fun x => x.id != d.id && gridFits s p x && comesBefore x d)

/-- TEAM_PLACEMENT (R133): the next team of a grid without a gang goes to a core that takes it. -/
def execTeamPlacement (p grid core : Nat) (s : State) : Host.Outcome State Fault Refusal :=
  .next (match s.part? p, s.grid? grid with
    | some x, some d =>
      if d.phase.isNone && d.record.gangPref == 0 && placesNext s x d && (partCores x).contains core && coreTakesNew s core d.record 1 then
        placeTeam s grid core d.next 1 0
      else s
    | _, _ => s)

/-- Whether a list of cores can take a set: all in one cluster of the partition, and each as many teams as the list names it. -/
def setFits (s : State) (x : Part) (d : Grid) (cores : List Nat) : Bool :=
  match cores with
  | [] => false
  | c :: _ => x.clusters.contains (c / 4) && cores.all fun k =>
      k / 4 == c / 4 && coreTakesNew s k d.record (cores.filter fun y => y == k).length

/-- GANG_SET_PLACEMENT (R134): the teams of the next set go to the cores listed, in ascending team order, with ranks 0 to n - 1. -/
def execGangSetPlacement (p grid : Nat) (cores : List Nat) (s : State) : Host.Outcome State Fault Refusal :=
  .next (match s.part? p, s.grid? grid with
    | some x, some d =>
      if d.phase.isNone && d.record.gangPref != 0 && placesNext s x d && setSizeOf s x d == some cores.length && setFits s x d cores then
        (List.zip (List.range cores.length) cores).foldl (fun s kc => placeTeam s grid kc.2 d.next cores.length kc.1) s
      else s
    | _, _ => s)

/-! ### Taking a record (05 R131, R132, R136) -/

/-- The head of a launch queue, when it is written and the queue waits on no page. -/
def headRecord (s : State) (p q : Nat) : Option QueuedRecord :=
  match s.part? p with
  | none => none
  | some x => match x.launch[q]? with
    | none => none
    | some l => match l.items with
      | r :: _ => if r.reserved then none else some r
      | [] => none

/-- Changes a launch queue. -/
def modLaunch (s : State) (p q : Nat) (f : LaunchQueue → LaunchQueue) : State :=
  s.modPart p fun x => { x with launch := x.launch.mapIdx fun i l => if i = q then f l else l }

/-- Orrery holds a record from here on: its slot is free, and its grid has `teams` teams and an ending status (05 R131, R132). -/
def takeGrid (s : State) (p q : Nat) (r : QueuedRecord) (teams : Nat) (status : Byte) : State :=
  match s.part? p with
  | none => s
  | some x =>
    let (id, s1) := s.fresh
    let phase : Option Phase := if r.record.ephemeris then some { width := phaseWidth x r.record teams, num := 0, running := false } else none
    let d : Grid := { id := id, part := p, number := r.number, record := r.record, launcher := r.launcher, queue := q, teams := teams, next := 0,
                      status := status, retired := false, phase := phase }
    modLaunch { s1 with grids := s1.grids ++ [d] } p q fun l => { l with items := l.items.drop 1, pause := none }

/-- For whom Orrery reads a count: the launcher, a host submit as a system group (05 R132). -/
def countCtx (p q : Nat) (l : Launcher) : EngCtx :=
  { rights := { part := p, sys := l.sys }, view := {}, eph := false, req := requester 4 q, team := 0, gid := 0, q := 0 }

/-- A count that cannot be read: the grid retires at once with status 0x0B, and the log says why (05 R132). -/
def countFails (s : State) (p q : Nat) (r : QueuedRecord) (cause : Byte) (a : Dword) : State :=
  takeGrid (errLog s p 0x09 cause a 0 0 r.number (BitVec.ofNat 32 q)) p q r 0 0x0B

/-- ORRERY_TAKE_RECORD (R131): the head of a queue is taken, and an indirect count is read at its home. -/
def execOrreryTakeRecord (p q : Nat) (s : State) : Host.Outcome State Fault Refusal :=
  .next (match headRecord s p q with
    | none => s
    | some r =>
      if r.record.isFence || !(partWorks s p) then s
      else if r.ended then takeGrid s p q r 0 0x10
      else if r.record.indirect = false then takeGrid s p q r r.record.teams.toNat 0
      else match resumeOf (((s.part? p).bind fun x => x.launch[q]?).bind LaunchQueue.pause) with
        | .wait => s
        | .fail a => countFails s p q r causePage a
        | .go =>
          match engRead s (countCtx p q r.launcher) (r.record.countAddr.toNat : Int) 4 with
          | .ok (s1, n) => takeGrid s1 p q r n 0
          | .error (s1, .page a k w) =>
            let x := engPause s1 (countCtx p q r.launcher) a k w
            modLaunch x.1 p q fun l => { l with pause := some x.2 }
          | .error (s1, .fail st a) => countFails s1 p q r (causeOf st) a)

/-! ### Retirement (05 R128, R131) -/

/-- Whether a command, call or child of a grid is not complete. -/
def gridBusy (s : State) (d : Grid) : Bool :=
  let mine := fun (g : Nat) => (s.group? g).any fun x => s.inGrid d.id x
  (s.feeders.any fun q => (cmdsOf q.items).any fun f => f.grid == d.id) ||
  (s.mats.any fun q => q.cmds.any fun m => mine m.group) ||
  (s.copies.any fun q => (cmdsOf q.items).any fun c => c.grid == some d.id) ||
  ((openRequests s).any fun r => r.grid == some d.id) ||
  !(childGrids s d.id).isEmpty ||
  (s.parts.any fun p => p.launch.any fun l => l.items.any fun r => match r.launcher.team with
    | none => false
    | some t => s.teamOf t d.id)

/-- The launcher's record of a child that has retired, in a saved context too (05 R141). -/
def noteRetired (s : State) (l : Launcher) (n : Word) : State :=
  match l.team with
  | none => s
  | some t =>
    let note := fun (x : Team) => if x.id = t then { x with retired := x.retired ++ [n] } else x
    { s with teams := s.teams.map note }.mapSaved fun x => { x.ctx with teams := x.ctx.teams.map note }

/-- The end of a record: its completion word, and its launcher's wait (05 R128, R141). -/
def endRecord (s : State) (p q : Nat) (r : LaunchRecord) (l : Launcher) (n : Word) (status : Byte) : State :=
  noteRetired (completionWord s p r.complete (gridWord n status) { part := p, sys := l.sys } n (BitVec.ofNat 32 q)) l n

/-- QUEUE_FENCE_PASS (R131): a fence passes when every grid taken earlier from its queue has retired, and its word is written. -/
def execQueueFencePass (p q : Nat) (s : State) : Host.Outcome State Fault Refusal :=
  .next (match headRecord s p q with
    | none => s
    | some r =>
      if r.record.isFence && partWorks s p && s.allGrids.all fun d => !(d.part == p && d.queue == q) || d.retired then
        endRecord (modLaunch s p q fun l => { l with items := l.items.drop 1 }) p q r.record r.launcher r.number 0
      else s)

/-- Retires a grid: its teams and groups go, and its completion word is written (05 R128). -/
def retireGrid (s : State) (d : Grid) : State :=
  let mine := fun (t : Nat) => s.teams.any fun x => x.id == t && x.grid == d.id
  let s1 : State := { s with
    groups := s.groups.filter fun g => !(g.role == .ordinary && mine g.team)
    teams := s.teams.filter fun t => !(t.grid == d.id) }
  endRecord (s1.modGrid d.id fun d => { d with retired := true }) d.part d.queue d.record d.launcher d.number d.status

/-- Whether a grid can retire: every team was placed, every group has exited, and no command, call or child is left (05 R128). -/
def canRetire (s : State) (d : Grid) : Bool :=
  !d.retired && d.next == d.teams && (s.groups.all fun g => !(s.inGrid d.id g) || (g.exited && g.strays.isEmpty)) &&
    (d.phase.all fun ph => !ph.running) && !(gridBusy s d)

/-- GRID_RETIREMENT (R128). -/
def execGridRetirement (p grid : Nat) (s : State) : Host.Outcome State Fault Refusal :=
  .next (match s.grid? grid with
    | some d => if d.part == p && canRetire s d then retireGrid s d else s
    | none => s)

/-! ### Eviction (05 R148, R150; 16 R393) -/

/-- The groups of a team, in group order. -/
def groupsOf (s : State) (t : Team) : List Group := s.groups.filter fun g => g.team == t.id && g.role == .ordinary

/-- A team is parked: every group has exited or is parked, and one is (05 R147). -/
def teamParked (s : State) (t : Team) : Bool :=
  let gs := groupsOf s t
  (gs.any fun g => !g.exited) && gs.all fun g => g.exited || g.parked

/-- A condition that a fragment of the team waits for holds. -/
def teamMet (s : State) (t : Team) : Bool := (groupsOf s t).any fun g => g.frags.any fun f => f.wait.any (waitMet s g)

/-- The third condition: no result, reply, matrix command, joint command or feed of a group, one that has exited among them, is outstanding
(05 R148, 14 R350). -/
def teamQuiet (s : State) (t : Team) : Bool := (groupsOf s t).all fun g => g.allLanded && g.strays.isEmpty && !(engineBusy s g.id)

/-- The teams of a team's gang set that are still there: they are evicted together (05 R148). -/
def setOf (s : State) (t : Team) : List Team :=
  s.teams.filter fun x => x.grid == t.grid && x.setFirst == t.setFirst && x.place != .gone

/-- Whether a team's grid runs in Ephemeris mode; its teams are never evicted (17 R400). -/
def inPhase (s : State) (t : Team) : Bool := (s.grid? t.grid).any fun d => d.phase.isSome

/-- The free save slots of a partition that can hold a team's area (16 R393). -/
def freeSlots (p : Part) : List Nat := (List.range p.saveSlots.toNat).filter fun m => !(p.slotsUsed.contains m)
def slotHolds (s : State) (p : Part) (t : Team) : Bool := (recordOf s t).all fun r => decide (areaSize r t.sliceLen ≤ p.saveBytes.toNat)

/-- The other teams that are chosen for a forced eviction, each of which will take a slot (05 R150; 16 R393). -/
def chosenBeside (s : State) (p : Part) (ts : List Team) : List Team :=
  s.teams.filter fun t => t.part == p.id && t.chosen.isSome && (match t.place with | .core _ => true | _ => false) && !(ts.any fun x => x.id == t.id)

/-- Whether a set of teams has slots, beside those that teams which are chosen already will take. -/
def slotsFor (s : State) (p : Part) (ts : List Team) : Bool :=
  decide (ts.length + (chosenBeside s p ts).length ≤ (freeSlots p).length) && ts.all (slotHolds s p)

/-- Saves one team and frees its core; a team saved as ready is pending relaunch at once (05 R148, R150). -/
def evictOne (s : State) (ready : Bool) (tid : Nat) : State :=
  match s.team? tid with
  | none => s
  | some t =>
    match s.part? t.part, s.grid? t.grid, t.place with
    | some p, some d, .core c =>
      match freeSlots p with
      | [] => s
      | m :: _ =>
        let s1 := saveArea s (p.saveBase.toNat + m * p.saveBytes.toNat) d t (groupsOf s t) ready
        let s2 := s1.modTeam tid fun t => { t with place := .evicted c m ready, saveTag := s.free, chosen := none }
        let s3 := s2.modPart p.id fun p => { p with
          slotsUsed := p.slotsUsed ++ [m], relaunch := if ready then p.relaunch ++ [tid] else p.relaunch }
        s3.count 1 (c / 4) 3 1
    | _, _, _ => s

/-- Saves a set of teams. -/
def evictSet (s : State) (ts : List Team) (ready : Bool) : State := (ts.map Team.id).foldl (fun s t => evictOne s ready t) s

/-- Whether other work is pending for a partition: a relaunch, or a team that no core can take now (05 R148).  The teams of an Ephemeris grid's next
phase are such teams while they do not all fit, and while its phase still runs (DESIGN CHOICE, notes/assumptions/106.md). -/
def otherWork (s : State) (p : Part) : Bool := !p.relaunch.isEmpty || (pendingGrids s p).any fun d => !(gridFits s p d)

/-- Whether a team qualifies for an eviction: parked, with no condition met, and quiet. -/
def qualifies (s : State) (t : Team) : Bool :=
  (match t.place with | .core _ => true | _ => false) && !(inPhase s t) && teamParked s t && !(teamMet s t) && teamQuiet s t

/-- The eviction threshold of a team's grid is not 'never' (05 R124). -/
def evictable (s : State) (t : Team) : Bool := (recordOf s t).any fun r => r.evict != 0xFFFFFFFF#32

/-- TEAM_EVICTION (R148): a team that has been parked longer than its threshold is saved, with the teams of its gang set. -/
def execTeamEviction (team : Nat) (s : State) : Host.Outcome State Fault Refusal :=
  .next (match s.team? team with
    | none => s
    | some t =>
      match s.part? t.part with
      | none => s
      | some p =>
        let ts := setOf s t
        if placing p && otherWork s p && (ts.all fun x => qualifies s x && evictable s x) && slotsFor s p ts then evictSet s ts false else s)

/-! ### Forced eviction (05 R150) -/

/-- A group of a chosen team has stopped: it has exited, or every fragment is stopped or parked outside a handler (16 R388). -/
def groupStopped (g : Group) : Bool :=
  g.exited || (g.handler.isNone && g.trapWait.isNone && g.frags.all fun f => f.stopped || g.parkedFrag f)

/-- A relaunch that no core can take, which a core could take after freeing some of its teams (05 R150). -/
def stuckFor (s : State) (p : Part) (core : Nat) (ts : List Team) : Bool :=
  (p.relaunch.filterMap s.team?).any fun r =>
    !((partCores p).any fun c => coreTakesBack s c [] r) && coreTakesBack s core ts r

/-- A candidate: of class 1 to 3, not in a phase, and quiet (05 R150). -/
def candidate (s : State) (t : Team) : Bool :=
  (recordOf s t).any (fun r => r.priority != 0) && !(inPhase s t) && teamQuiet s t &&
    (match t.place with | .core _ => true | _ => false)

/-- Whether the next unit of some fragment of a team, outside a handler, is a YCHK (06 R171). -/
def atYchk (s : State) (t : Team) : Bool :=
  (groupsOf s t).any fun g => g.handler.isNone && g.frags.any fun f =>
    couldIssue s g f && (match translate s (s.rightsOf g) none .fetch f.pc 0 with
      | .loc l _ _ => (match decode (readLocs s {} l 4) with | .ok .ychk => true | _ => false)
      | _ => false)

/-- The teams of a team's gang set on a core. -/
def setOn (s : State) (core : Nat) (t : Team) : List Team := (setOf s t).filter fun x => x.place == .core core

/-- Whether a core holds a candidate that is parked, with its gang set, which is chosen first (05 R150): one after whose freeing the core could take
the relaunch (DESIGN CHOICE, notes/assumptions/106.md). -/
def hasParked (s : State) (p : Part) (core : Nat) : Bool :=
  (teamsOn s core).any fun t => ((setOf s t).all fun x => candidate s x && teamParked s x && !(teamMet s x)) && stuckFor s p core (setOn s core t)

/-- Chooses a set of teams for a forced eviction (05 R150). -/
def chooseSet (s : State) (ts : List Team) : State := (ts.map Team.id).foldl (fun s t => s.modTeam t fun x => { x with chosen := some false }) s

/-- Whether a team already waits to be saved on a core. -/
def choosing (s : State) (core : Nat) : Bool := (teamsOn s core).any fun t => t.chosen.isSome

/-- FORCED_EVICTION (R150): a relaunch has waited 50,000 cycles and no core can take it: a core that could take it after freeing a team
saves a parked one at once, or else chooses one whose group is at a YCHK, where slots of the save pool can hold it (16 R393).  A chosen team is saved, as ready, once it has stopped and is
quiet. -/
def execForcedEviction (team : Nat) (s : State) : Host.Outcome State Fault Refusal :=
  .next (match s.team? team with
    | none => s
    | some t =>
      match s.part? t.part, t.place with
      | some p, .core c =>
        let ts := setOf s t
        if placing p = false then s
        else if t.chosen.isSome then
          if (ts.all fun x => (groupsOf s x).all groupStopped && teamQuiet s x) && slotsFor s p ts then evictSet s ts true else s
        else if choosing s c || !(stuckFor s p c (setOn s c t)) || !(ts.all (candidate s)) || !(slotsFor s p ts) then s
        else if (ts.all fun x => teamParked s x && !(teamMet s x)) then evictSet s ts false
        else if hasParked s p c = false && atYchk s t then chooseSet s ts
        else s
      | _, _ => s)

/-- Stops a group that runs outside a handler: its running fragments by restart, the others at once (16 R387, R388). -/
def stopByRestart (g : Group) : Group :=
  if g.handler.isSome || g.trapWait.isSome || g.exited then g
  else
    let run := (g.frags.filter fun f => !f.stopped && !(g.parkedFrag f)).foldl (fun g f => restartFrag g f true) g
    { run with frags := run.frags.map fun f => { f with stopped := true } }

/-- FORCED_STOP_DEADLINE (R150): the yield limit since the choice has elapsed: groups of the team that still run outside a handler are
stopped by restart (16 R387); parked ones are stopped already (16 R388). -/
def execForcedStopDeadline (team : Nat) (s : State) : Host.Outcome State Fault Refusal :=
  .next (match s.team? team with
    | none => s
    | some t =>
      if t.chosen = none then s
      else ((groupsOf s t).map Group.id).foldl (fun s gid => s.modGroup gid stopByRestart) s)

/-! ### Relaunch (05 R149; 16 R394) -/

/-- The FIFOs of a team's streams move with it to another core; the spec leaves open what becomes of them (DESIGN
CHOICE, notes/assumptions/41.md). -/
def moveFifos (s : State) (t : Team) (from_ core : Nat) : State :=
  if from_ = core then s
  else (fifosOf s t from_).foldl (fun s f =>
    modFifo (modFifo s core f.num fun y => { f with core := y.core }) from_ f.num fun y =>
      { y with bound := none, tiles := [], discard := 0, pause := none, got := {} }) s

/-- A restore that fails a check: a context fault of the team's grid, and the slot is released (16 R394). -/
def restoreFails (s : State) (t : Team) (gid : Nat) : State :=
  let s1 : State := { s with free := s.free + 3 }
  contextFault s1 gid (BitVec.ofNat 8 (Config.openCode s.free)) (BitVec.ofNat 64 (Config.openCode (s.free + 1)))
    (BitVec.ofNat 64 (Config.openCode (s.free + 2))) |>.modPart t.part fun p => dropTeam p t

/-- Brings a team back onto a core from its save area. -/
def relaunchTeam (s : State) (t : Team) (d : Grid) (p : Part) (from_ m core : Nat) : State :=
  let at_ := p.saveBase.toNat + m * p.saveBytes.toNat
  let gs := groupsOf s t
  match (if headerOk s at_ d t then gs.find? (fun g => !(recordOk s (recordAt at_ d g.num) t.saveTag g)) else gs.head?) with
  | some g => restoreFails s t g.id
  | none =>
    let restored := gs.map fun g =>
      let g1 := if g.exited then g else restoreRegs s (recordAt at_ d g.num) g
      { g1 with frags := g1.frags.map fun f => { f with stopped := false, held := false, ready := s.tick, promoted := none } }
    let s1 := restored.foldl State.setGroup s
    let s2 := s1.setTeam { restoreSlice s at_ d t with place := .core core }
    let s3 := seatGroups (moveFifos s2 t from_ core) core (gs.map Group.id)
    (s3.modPart p.id fun p => dropTeam p t).count 1 (core / 4) 2 1

/-- RELAUNCH_PLACEMENT (R149): the oldest relaunch that fits goes to a core that takes it. -/
def execRelaunchPlacement (team core : Nat) (s : State) : Host.Outcome State Fault Refusal :=
  .next (match s.team? team with
    | none => s
    | some t =>
      match s.part? t.part, s.grid? t.grid, t.place with
      | some p, some d, .evicted from_ m _ =>
        if placing p && (firstRelaunch s p).any (fun x => x.id == team) && (partCores p).contains core && coreTakesBack s core [] t then
          relaunchTeam s t d p from_ m core
        else s
      | _, _, _ => s)

end Sys2Proof.Machine
end

