-- ==== Sys2Proof/Machine/Device.lean ====
section
/-!
DEFINITION. The device function: reset and bring-up, firmware, attestation, the assignment of resources to partitions, and the fields of a
partition control block (19 R437; 20 R443 to R446, R455, R456; 18 R422; 19 R431).
-/

namespace Sys2Proof.Machine

/-! ### Reset and bring-up (20 R443) -/

/-- The machine without partitions: what a reset of the device leaves of memory, and what outlives it. -/
def clearParts (s : State) : State :=
  { s with parts := [], grids := [], teams := [], groups := [], fifos := [], feeders := [], copies := [], mats := [], latches := [],
           homes := [], flight := [], cur := none }

/-- The device function as a reset leaves it: stage 1; the counters, the images and the id in the fabric outlive it, and an image written since
the last reset is the one that this bring-up verifies (20 R443, R455, R456). -/
def resetDevice (d : Device) : Device :=
  { Device.reset with
    version := d.version, digest := d.digest, loading := d.pending.orElse (fun _ => d.loading), security := d.security, sigIndex := d.sigIndex,
    fabricId := d.fabricId }

/-- Memory without what the HBM stacks held: every byte of tier 0 reads zero again (20 R443). -/
def clearTier0 (s : State) : State :=
  { s with mem := s.mem.filter fun x => decide (pow2 58 ≤ x.1), memErr := s.memErr.filter fun w => decide (pow2 58 ≤ 16 * w), shadow := [] }

/-- POWER_ON_RESET (R443): the device powers on at stage 1, and whatever its memories held is gone. -/
def execPowerOnReset (s : State) : Host.Outcome State Fault Refusal :=
  .next { clearTier0 (clearParts s) with dev := resetDevice s.dev }

/-- DEVICE_FUNCTION_RESET (R443): bring-up begins again at stage 1; memory is written zero at stage 2. -/
def execDeviceFunctionReset (s : State) : Host.Outcome State Fault Refusal :=
  .next (if s.dev.powered then { clearParts s with dev := resetDevice s.dev } else s)

/-- POWER_LOSS (R456): supply is lost: volatile state is gone, and nothing happens until power-on; a committed signature index stays used. -/
def execPowerLoss (s : State) : Host.Outcome State Fault Refusal :=
  .next { clearTier0 (clearParts s) with dev := { resetDevice s.dev with powered := false } }

/-- Gloerapor accepts an image: its signature verifies, and its security version is not below the security counter (20 R455). -/
def imageOk (d : Device) (f : Firmware) : Bool := f.signed && decide (d.security.toNat ≤ f.version.toNat)

/-- The end of stage 1: the image written before this reset, when there is one, is verified and activated, which raises the security counter;
an image that is refused leaves the device at stage 1 (20 R443, R455). -/
def verifyFirmware (d : Device) (cause : Byte) : Device :=
  match d.loading with
  | none => { d with stage := 2, failCause := 0 }
  | some f =>
    if imageOk d f then
      { d with stage := 2, failCause := 0, version := f.version, digest := f.digest, loading := none,
               security := if d.security.toNat ≤ f.version.toNat then f.version else d.security }
    else { d with failCause := cause }

/-- The device at stage 4: every port is down and unassigned, and system software has assigned its id in the fabric domain (19 R429, 20 R443;
that the id comes with this stage is DEDUCED, notes/assumptions/34.md). -/
def readyDevice (d : Device) (fabricId : BitVec 12) : Device :=
  { d with stage := 4, failCause := 0, fabricId := fabricId, ports := Device.reset.ports }

/-- BRING_UP_STAGE_ADVANCE (R443): the running stage completes, or stage 1 or 2 fails with a cause. -/
def execBringUpStageAdvance (ok : Bool) (given : StageInput) (s : State) : Host.Outcome State Fault Refusal :=
  .next (if s.dev.powered = false then s
  else match s.dev.stage with
    | 1 => { s with dev := if ok then verifyFirmware s.dev given.cause else { s.dev with failCause := given.cause } }
    | 2 => if ok then { clearTier0 s with dev := { s.dev with stage := 3, failCause := 0 } } else { s with dev := { s.dev with failCause := given.cause } }
    | 3 => { s with dev := readyDevice s.dev given.fabricId }
    | _ => s)

/-- FIRMWARE_UPDATE_WRITE (R455): an image is verified as it is written, through the recovery window at stage 1 too, and takes effect at the
next reset; one that Gloerapor refuses changes nothing. -/
def execFirmwareUpdateWrite (image : Firmware) (s : State) : Host.Outcome State Fault Refusal :=
  .next (if s.dev.powered && (s.dev.stage == 4 || s.dev.stage == 1) && imageOk s.dev image then
    { s with dev := { s.dev with pending := some image } }
  else s)

/-! ### Attestation (20 R456) -/

/-- One partition's assignment and its control block settings above offset 0x0000, as words (20 R456). -/
def partWords (p : Part) : List Nat :=
  [p.id] ++ p.clusters ++ [p.clusters.length] ++ p.quarters ++ [p.quarters.length] ++ p.engines ++ [p.engines.length] ++ p.ports ++ [p.ports.length] ++
    [p.yieldLimit.toNat, p.window.toNat, p.drain.toNat, p.swap.toNat, p.reset.toNat, p.collective.toNat, if p.snapAllow then 1 else 0,
     p.image.toNat, p.saveBase.toNat, p.saveBytes.toNat, p.saveSlots.toNat, p.faultBase.toNat, p.faultK, p.errBase.toNat, p.errK,
     p.vectors.toNat] ++
    (p.launch.flatMap fun q => [q.base.toNat, q.k, if q.sys then 1 else 0]) ++ (p.work.flatMap fun w => [w.base.toNat, w.k]) ++
    (p.hash.flatMap fun h => [h.num, h.members, h.self, h.pages, h.base, h.backing, h.table]) ++
    p.exports.flatMap fun e => [e.num, e.base, e.length, e.lo, e.hi]

/-- The signatures that the identity key gives: 2^20 (20 R456). -/
def signatures : Nat := pow2 20

/-- ATTESTATION_NONCE_WRITE (R456): the signature index is advanced and committed, and then the quote is formed; at exhaustion the request
fails with status 0x04 and no signature is made. -/
def execAttestationNonceWrite (nonce : BitVec 256) (s : State) : Host.Outcome State Fault Refusal :=
  .next (if ready s = false then s
  else
    let config := Config.configDigest (s.parts.flatMap partWords)
    let q : Quote := { version := 1, status := 0, index := BitVec.ofNat 32 s.dev.sigIndex, nonce := nonce, firmware := s.dev.digest, config := config,
                       security := s.dev.security, signature := some s.dev.sigIndex }
    if s.dev.sigIndex < signatures then { s with dev := { s.dev with sigIndex := s.dev.sigIndex + 1, quote := q } }
    else
      { s with
        free := s.free + 1
        dev := { s.dev with quote := { q with status := 0x04, index := BitVec.ofNat 32 (Config.openCode s.free), signature := none } } })

/-- Bytes of a signature: its index, randomness, 67 chain values and 20 nodes (20 R456). -/
def signatureBytes : Nat := 2820

/-- A byte of a signature: its first four are the index that it uses, and the rest is what the key gives (20 R456). -/
def signatureAt (n k : Nat) : Byte :=
  if k < 4 then (bytesOfNat 4 n).getD k 0 else if k < signatureBytes then Config.signatureByte n k else 0

/-- A byte of the quote window (20 R456). -/
def quoteByte (q : Quote) (off : Nat) : Byte :=
  let head := bytesOfNat 2 q.version.toNat ++ [q.status, 0] ++ bytesOfNat 4 q.index.toNat ++ bytesOfNat 32 q.nonce.toNat ++
    bytesOfNat 32 q.firmware.toNat ++ bytesOfNat 32 q.config.toNat ++ bytesOfNat 4 q.security.toNat
  if off < head.length then head.getD off 0
  else match q.signature with
    | some n => signatureAt n (off - head.length)
    | none => 0

/-! ### Partitions (19 R437; 20 R444) -/

/-- The numbers of a resource are below its count and named once (01 R10). -/
def namedOnce (l : List Nat) (n : Nat) : Bool := l.all (fun x => decide (x < n)) && l.eraseDups.length == l.length

/-- None of the numbers belongs to another partition (01 R21). -/
def freeOf (s : State) (p : Nat) (l : List Nat) (f : Part → List Nat) : Bool :=
  s.parts.all fun x => x.id == p || l.all fun n => !((f x).contains n)

/-- A partition at rest: no grid, command or request (19 R437). -/
def atRest (s : State) (p : Part) : Bool :=
  (s.grids.all fun d => d.part != p.id || d.retired) && p.launch.all (fun q => q.items.isEmpty) &&
  (s.feeders.all fun q => !(p.clusters.contains (q.core / 4)) || q.items.isEmpty) &&
  (s.mats.all fun q => !(p.clusters.contains (q.core / 4)) || q.cmds.isEmpty) &&
  (s.copies.all fun q => q.part != p.id || q.items.isEmpty) &&
  (s.homes.all fun h => !(p.clusters.contains h.num) || (h.queue.isEmpty && h.bins.isEmpty && h.closed.isEmpty && h.batches.isEmpty)) &&
  s.flight.all fun r => !(p.clusters.contains r.home)

/-- The ports that an assignment gives or takes away carry nothing (19 R437). -/
def portsIdle (s : State) (a : Assignment) : Bool :=
  s.dev.ports.all fun q =>
    !(a.ports.contains q.num || q.owner == some a.partition) || (q.unacked.isEmpty && q.early.isEmpty && q.rx.isEmpty)

/-- An assignment that R437 admits. -/
def assignOk (s : State) (a : Assignment) : Bool :=
  decide (a.partition < 8) && namedOnce a.clusters 36 && namedOnce a.quarters 16 && namedOnce a.engines 64 && namedOnce a.ports 64 &&
  !a.clusters.isEmpty && !a.quarters.isEmpty && !a.engines.isEmpty &&
  freeOf s a.partition a.clusters Part.clusters && freeOf s a.partition a.quarters Part.quarters &&
  freeOf s a.partition a.engines Part.engines && freeOf s a.partition a.ports Part.ports &&
  portsIdle s a && (s.part? a.partition).all fun p => atRest s p && !p.running

/-- A partition as its function appears: the defaults of the rules, and zero where they give none (02 R54, 11 R287, 16 R389, 19 R440;
DESIGN CHOICE, notes/assumptions/1.md). -/
def newPart (a : Assignment) (clock : Nat) : Part :=
  { id := a.partition, clusters := a.clusters, quarters := a.quarters, engines := a.engines, ports := a.ports, root := 0, yieldLimit := 20000,
    window := 32, drain := 100000, swap := 20000, reset := 1000000, collective := 67108864, snapAllow := false, running := false, status := 0,
    image := 0, saveBase := 0, saveBytes := 0, saveSlots := 0, faultBase := 0, faultK := 0, answer := 0, errBase := 0, errK := 0,
    faultProd := 0, faultCons := 0, errProd := 0, errCons := 0, vectors := 0, errLost := 0,
    launch := (List.range 16).map fun _ => {}, work := (List.range 64).map fun _ => {}, hash := [], exports := [], nextGrid := 1, nextFault := 1,
    nextErr := 1, faults := [], tlb := [], blockTlb := [], tier := .run, slotsUsed := [], relaunch := [], msiFault := 0, msiErr := 0, words := [],
    snap := {}, epoch := clock }

/-- The empty FIFOs, feeders and matrix queue of a core, the copy queues of a partition, and the home of a cluster (01, 10 R262, 11 R281). -/
def newFifos (core : Nat) : List Fifo :=
  (List.range 16).map fun n => { core := core, num := n, bound := none, tiles := [], discard := 0, pause := none }
def newFeeders (core : Nat) : List Feeder :=
  (List.range 4).map fun n =>
    { core := core, num := n, nextSeq := 1, done := 0, items := [], running := none, shape := [], index := [], pause := none }
def newMat (core : Nat) : MatQueue := { core := core, cmds := [] }
def newCopies (p : Nat) : List CopyQueue :=
  (List.range 16).map fun n => { part := p, num := n, nextSeq := 1, done := 0, items := [], running := none, src := [], dst := [], srcIdx := [],
                                 dstIdx := [], pause := none }
def newHome (n : Nat) : Home :=
  { num := n, queue := [], bins := [], closed := [], bindings := [], batches := [], nextBin := 1, pauses := [] }

/-- The units of some clusters, and the copy queues of a partition, at rest. -/
def addUnits (s : State) (p : Nat) (clusters : List Nat) : State :=
  let cores := clusters.flatMap coresOf
  { s with
    fifos := s.fifos ++ cores.flatMap newFifos, feeders := s.feeders ++ cores.flatMap newFeeders, mats := s.mats ++ cores.map newMat
    copies := s.copies ++ newCopies p, homes := s.homes ++ clusters.map newHome }

/-- Takes the units of a partition away. -/
def dropUnits (s : State) (p : Part) : State :=
  let mine := fun (core : Nat) => p.clusters.contains (core / 4)
  { s with
    fifos := s.fifos.filter fun x => !(mine x.core), feeders := s.feeders.filter fun x => !(mine x.core), mats := s.mats.filter fun x => !(mine x.core)
    copies := s.copies.filter fun x => x.part != p.id, homes := s.homes.filter fun h => !(p.clusters.contains h.num) }

/-- The ports that a partition owns (19 R428). -/
def ownPorts (s : State) (p : Nat) (ports : List Nat) : State :=
  let own := fun (q : Port) =>
    if ports.contains q.num then { q with owner := some p } else if q.owner = some p then { q with owner := none } else q
  { s with dev := { s.dev with ports := s.dev.ports.map own } }

/-- The bindings of a partition's homes at the homes of the clusters that it has now: they last until they are removed or the partition is reset
(11 R280, R306). -/
def rebind (s : State) (p : Nat) (bs : List Binding) : State :=
  bs.foldl (fun s b => s.modHome (homeOf s p b.base) fun h => { h with bindings := h.bindings ++ [b] }) s

/-- PARTITION_ASSIGN (R437): idle resources are assigned to a partition, whose function then appears; a partition at rest can be assigned
anew, and keeps its settings and its bindings. -/
def execPartitionAssign (a : Assignment) (s : State) : Host.Outcome State Fault Refusal :=
  .next (if ready s = false then s
  else if assignOk s a = false then s.modPart a.partition fun p => { p with status := 1 }
  else
    let base := match s.part? a.partition with
      | none => { s with parts := s.parts ++ [newPart a s.clock] }
      | some p => (dropUnits s p).setPart { p with
          clusters := a.clusters, quarters := a.quarters, engines := a.engines, ports := a.ports, status := 0, tlb := [], blockTlb := [] }
    let bs := match s.part? a.partition with
      | none => []
      | some p => (s.homes.filter fun h => p.clusters.contains h.num).flatMap Home.bindings
    ownPorts (rebind (addUnits base a.partition a.clusters) a.partition bs) a.partition a.ports)

/-! ### The control block (20 R444) -/

/-- A write of a value within its range, or one that is ignored, with status 0x01 (20 R444). -/
def setting (ok : Bool) (p : Part) (f : Part → Part) : Part := if ok then { f p with status := 0 } else { p with status := 1 }

/-- A base of a ring or pool in tier-0 memory.  Only the base is judged: a ring that starts in tier 0 and runs past its end is accepted, and what
lies past it is written there (DESIGN CHOICE, notes/assumptions/105.md). -/
def baseOk (v : Nat) : Bool := decide (v < Config.tier0Bytes)

/-- A field of a launch queue: base, ring size and system bit, and the address last written to submit; what a submit does is LAUNCH_SUBMIT,
and the result is only read (20 R444). -/
def writeLaunchField (p : Part) (q f : Nat) (v : Dword) : Part :=
  let upd := fun (g : LaunchQueue → LaunchQueue) (p : Part) => { p with launch := p.launch.mapIdx fun i x => if i = q then g x else x }
  let k := (v.extractLsb' 0 5).toNat
  match f with
  | 0 => setting (baseOk v.toNat) p (upd fun x => { x with base := v })
  | 8 => setting (decide (2 ≤ k) && decide (k ≤ 16) && v.toNat / 64 == 0) p (upd fun x => { x with k := k, sys := v.getLsbD 5 })
  | 16 => upd (fun x => { x with submit := v }) p
  | _ => p

/-- A field of a work queue (20 R444, 05 R137). -/
def writeWorkField (p : Part) (w f : Nat) (v : Dword) : Part :=
  let upd := fun (g : WorkQueue → WorkQueue) (p : Part) => { p with work := p.work.mapIdx fun i x => if i = w then g x else x }
  match f with
  | 0 => setting (baseOk v.toNat) p (upd fun x => { x with base := v })
  | 8 => setting (decide (4 ≤ v.toNat) && decide (v.toNat ≤ 20)) p (upd fun x => { x with k := v.toNat })
  | _ => p

/-- A hash window that is not set up: no members, and no page. -/
def noWindow (n : Nat) : HashWindow := { num := n, members := 0, self := 0, pages := 0, base := 0, backing := 0, table := 0 }

/-- The hash window of a number. -/
def windowOf (p : Part) (n : Nat) : HashWindow := (p.hash.find? fun x => x.num == n).getD (noWindow n)

/-- Puts a hash window. -/
def putWindow (h : HashWindow) (p : Part) : Part :=
  { p with hash := if p.hash.any (fun x => x.num == h.num) then p.hash.map (fun x => if x.num = h.num then h else x) else p.hash ++ [h] }

/-- Whether the member table of a window holds device ids with their reserved bits zero (18 R422). -/
def membersOk (s : State) (table g : Nat) : Bool := (List.range g).all fun i => decide (natOfBytes (readKeys s (table + 2 * i) 2) < pow2 12)

/-- An address of a hash window descriptor: one that is refused keeps the window from being set up until a good one is written (18 R422). -/
def hashAddress (ok : Bool) (p : Part) (h : HashWindow) (f : Nat) (put : HashWindow → HashWindow) : Part :=
  let rest := h.bad.filter fun x => x != f
  if ok then { putWindow (put { h with bad := rest }) p with status := 0 } else { putWindow { h with bad := f :: rest } p with status := 1 }

/-- A dword of a hash window descriptor: the first one, of version 1, sets the window up with the addresses as written before, and version 0
removes it; a malformed descriptor is refused, and so is a member table of a window that is set up whose entries have a reserved bit set (18 R422,
20 R444). -/
def writeHashField (s : State) (p : Part) (n f : Nat) (v : Dword) : Part :=
  let h := windowOf p n
  let x := v.toNat
  match f with
  | 0 =>
    let g := bitsOf x 23 16
    let self := bitsOf x 31 24
    if bitsOf x 15 0 = 0 then setting true p fun p => { p with hash := p.hash.filter fun y => y.num != n }
    else setting (bitsOf x 15 0 == 1 && decide (2 ≤ g) && decide (g ≤ 64) && decide (self < g) && decide (1 ≤ x / pow2 32) && h.bad.isEmpty &&
        membersOk s h.table g) p
      (putWindow { h with members := g, self := self, pages := x / pow2 32 })
  | 8 => hashAddress (x % pow2 21 == 0 && decide (x < pow2 57)) p h f fun h => { h with base := x }
  | 16 => hashAddress (x % pow2 21 == 0 && baseOk x) p h f fun h => { h with backing := x }
  | 24 => hashAddress (x % 2 == 0 && baseOk x && membersOk s x h.members) p h f fun h => { h with table := x }
  | _ => p

/-- A field of an export range (20 R444, 19 R431). -/
def writeExportField (p : Part) (n f : Nat) (v : Dword) : Part :=
  let e : ExportRange := (p.exports.find? fun x => x.num == n).getD { num := n, base := 0, length := 0, lo := 0, hi := 0 }
  let put := fun (e : ExportRange) (p : Part) =>
    { p with exports := if p.exports.any (fun x => x.num == n) then p.exports.map (fun x => if x.num = n then e else x) else p.exports ++ [e] }
  match f with
  | 0 => setting (baseOk v.toNat) p (put { e with base := v.toNat })
  | 8 => setting true p (put { e with length := v.toNat })
  | 16 => setting (v.toNat &&& 0xFFFFFFFFF000F000 == 0) p (put { e with lo := bitsOf v.toNat 11 0, hi := bitsOf v.toNat 27 16 })
  | _ => p

/-- A field of the control block by its offset; those that are read only, and those with a row of their own, are left alone, but for a malformed
answer (20 R444). -/
def writeField (s : State) (p : Part) (off : Nat) (v : Dword) : Part :=
  let x := v.toNat
  let w := BitVec.ofNat 32 x
  match off with
  | 0x0000 => setting (x % 4096 == 0 && baseOk x) p fun p => { p with root := v }
  | 0x0008 => setting (decide (1000 ≤ x) && decide (x ≤ 1000000)) p fun p => { p with yieldLimit := w }
  | 0x000C => setting (decide (x ≤ 255)) p fun p => { p with window := BitVec.ofNat 8 x }
  | 0x0010 => setting (decide (x < pow2 32)) p fun p => { p with drain := w }
  | 0x0014 => setting (decide (1000 ≤ x) && decide (x ≤ 1000000)) p fun p => { p with swap := w }
  | 0x0018 => setting (decide (10000 ≤ x) && decide (x < pow2 32)) p fun p => { p with reset := w }
  | 0x001C => setting (decide (x < pow2 32)) p fun p => { p with collective := w }
  | 0x0028 => setting true p fun p => { p with image := v }
  | 0x0030 => setting (baseOk x) p fun p => { p with saveBase := v }
  | 0x0038 => setting (decide (x < pow2 32)) p fun p => { p with saveBytes := w }
  | 0x003C => setting (decide (x < pow2 32)) p fun p => { p with saveSlots := w }
  | 0x0040 => setting (baseOk x) p fun p => { p with faultBase := v }
  | 0x0048 => setting (decide (4 ≤ x) && decide (x ≤ 16)) p fun p => { p with faultK := x }
  | 0x004C => if x < pow2 33 then p else { p with status := 1 }
  | 0x0058 => setting (baseOk x) p fun p => { p with errBase := v }
  | 0x0060 => setting (decide (4 ≤ x) && decide (x ≤ 16)) p fun p => { p with errK := x }
  | 0x0074 => setting (decide (x < pow2 32)) p fun p => { p with vectors := w }
  | _ =>
    if 0x0100 ≤ off ∧ off < 0x0300 then writeLaunchField p ((off - 0x0100) / 32) ((off - 0x0100) % 32) v
    else if 0x0300 ≤ off ∧ off < 0x0700 then writeWorkField p ((off - 0x0300) / 16) ((off - 0x0300) % 16) v
    else if 0x0700 ≤ off ∧ off < 0x0900 then writeHashField s p ((off - 0x0700) / 32) ((off - 0x0700) % 32) v
    else if 0x0900 ≤ off ∧ off < 0x0B00 then writeExportField p ((off - 0x0900) / 32) ((off - 0x0900) % 32) v
    else p

/-- REGISTER_WRITE (R444): a field of a partition's control block, or the snapshot selector of a function (20 R454). -/
def execRegisterWrite (p off : Nat) (v : Dword) (s : State) : Host.Outcome State Fault Refusal :=
  .next (if ready s = false then s
  else if off = 0x8020 then
    if v &&& 0xFFFFFFFF00FF0000#64 = 0 then modSnap s p fun w => { w with selector := v.extractLsb' 0 32 }
    else s.modPart p fun x => { x with status := 1 }
  else s.modPart p fun x => writeField s x off v)

/-- SNAP_ALLOW (R445): a setting, not an action. -/
def execSnapAllow (p : Nat) (on : Bool) (s : State) : Host.Outcome State Fault Refusal :=
  .next (s.modPart p fun x => { x with snapAllow := on })

/-- LAUNCH_SUBMIT (R446): the host's record is checked and appended; the result field holds the number and the status. -/
def execLaunchSubmit (p q : Nat) (record : List Byte) (s : State) : Host.Outcome State Fault Refusal :=
  .next (match s.part? p with
    | none => s
    | some x =>
      if 16 ≤ q then s
      else
        let r := submitRecord s p q record { team := none, sys := true } ((x.launch.getD q {}).sys) false
        modLaunch r.2.2 p q fun l => { l with result := gridWord r.2.1 r.1 })

end Sys2Proof.Machine
end

