-- ==== Sys2Proof/Machine/Preempt.lean ====
section
/-!
DEFINITION. What system software does to a running partition: answers to fault records and the counts of the rings (08 R221, R222; 20 R447),
invalidation (08 R219), pre-emption with its tiers, the exchange of contexts, spill and fill, and the reset of a context
(16 R387 to R392; 01 R22; 11 R300; 20 R445).
-/

namespace Sys2Proof.Machine

/-! ### Answers (08 R221, R222; 10 R260; 05 R458) -/

/-- The answer to a record, as a pause takes it. -/
def Pause.answer (seq : Word) (fail : Option Dword) (p : Pause) : Pause :=
  if p.open_.contains seq then
    { open_ := p.open_.filter fun n => n != seq, failed := match p.failed with | some a => some a | none => fail }
  else p

/-- The answer to a record, as a wait takes it; a failed region is named by its base. -/
def Wait.answer (seq : Word) (fail : Option Dword) (w : Wait) : Wait :=
  let add := fun (l : List Dword) => match fail with | none => l | some a => l ++ [a &&& 0xFFFFFFFFFFFF0000#64]
  match w with
  | .stall op failed lanes fetch =>
    if op.contains seq then .stall (op.filter fun n => n != seq) (add failed) lanes fetch else w
  | .queueFull todo op failed lanes fetch =>
    if op.contains seq then .queueFull todo (op.filter fun n => n != seq) (add failed) lanes fetch else w
  | _ => w

/-- The answer to a record, in a group. -/
def answerGroup (seq : Word) (fail : Option Dword) (g : Group) : Group :=
  { g with frags := g.frags.map fun f => { f with wait := f.wait.map (Wait.answer seq fail) } }

/-- The answer to a record, in a home: its own pause, and those of its batches. -/
def answerHome (seq : Word) (fail : Option Dword) (h : Home) : Home :=
  { h with
    pauses := h.pauses.map fun x => (x.1, x.2.answer seq fail)
    batches := h.batches.map fun b => { b with pause := b.pause.map (Pause.answer seq fail) } }

/-- The page of an address has come: what is kept of the memory that it lies in is out of date (08 R221, R233). -/
def dropPage (s : State) (p : Part) (addr : Dword) (m : Cells) : Cells :=
  match walk s p addr.toNat with
  | .leaf l => m.filter fun x => decide (x.1 < leafKey l l.base) || decide (leafKey l l.base + l.size ≤ x.1)
  | .absent _ => m

/-- The answer to a record, in a context that is saved (16 R390). -/
def Context.answer (seq : Word) (fail : Option Dword) (came : Cells → Cells) (c : Context) : Context :=
  { c with
    groups := c.groups.map (answerGroup seq fail)
    fifos := c.fifos.map fun f => { f with pause := f.pause.map (Pause.answer seq fail) }
    feeders := c.feeders.map fun q => { q with pause := q.pause.map (Pause.answer seq fail), past := q.past.map came }
    copies := c.copies.map fun q => { q with pause := q.pause.map (Pause.answer seq fail), past := q.past.map came }
    homes := c.homes.map (answerHome seq fail) }

/-- The answer to a record of an address, in the units of a partition, in its launch queues and waiting completion words, and in its saved
contexts. -/
def answerAll (s : State) (p : Part) (seq : Word) (addr : Dword) (fail : Option Dword) : State :=
  let came := dropPage s p addr
  let core := fun (c : Nat) => p.clusters.contains (c / 4)
  let home := fun (h : Home) => if p.clusters.contains h.num then answerHome seq fail h else h
  let ctx := fun (x : Saved) => if x.part = p.id then x.ctx.answer seq fail came else x.ctx
  let s1 : State := { s with
    groups := s.groups.map fun g => if g.part = p.id then answerGroup seq fail g else g
    fifos := s.fifos.map fun f => if core f.core then { f with pause := f.pause.map (Pause.answer seq fail) } else f
    feeders := s.feeders.map fun q => if core q.core then { q with pause := q.pause.map (Pause.answer seq fail), past := q.past.map came } else q
    copies := s.copies.map fun q => if q.part = p.id then { q with pause := q.pause.map (Pause.answer seq fail), past := q.past.map came } else q
    homes := s.homes.map home }
  (s1.mapSaved ctx).modPart p.id fun p => { p with
    launch := p.launch.map fun l => { l with pause := l.pause.map (Pause.answer seq fail) }
    words := p.words.map fun w => { w with pause := w.pause.answer seq fail } }

/-- The lanes of a stall whose region was answered with fail, and the lowest one's address (08 R221). -/
def failedLanes (f : Frag) (failed : List Dword) (lanes : List (Nat × Dword)) (fetch : Bool) : Word × Dword :=
  if fetch then (f.mask, f.pc)
  else
    let bad := lanes.filter fun x => failed.contains (x.2 &&& 0xFFFFFFFFFFFF0000#64)
    let mask := maskOf (bad.map Prod.fst)
    (mask, ((bad.find? fun x => x.1 == lowestLane mask).map Prod.snd).getD 0)

/-- Whether every record of a fragment's stall is answered, and nothing keeps it from going on: a stop, or an eviction; or a handler, when its
region is to begin again: a PAGEFAULT becomes pending on a fragment that is held (16 R381). -/
def stallOver (s : State) (g : Group) (f : Frag) : Bool :=
  (match f.wait with | some (.stall op failed _ _) => op.isEmpty && (!failed.isEmpty || !(g.holds f)) | _ => false) && !f.stopped &&
    (match g.role with | .service h _ => partWorks s (partOfHome s h) | .ordinary => (s.coreOf g).isSome)

/-- Whether every stall of a group is answered, and none with fail: a method's batch begins again then (11 R298). -/
def allRetried (g : Group) : Bool :=
  g.frags.all fun f => match f.wait with
    | some (.stall op failed _ _) => op.isEmpty && failed.isEmpty
    | some (.queueFull ..) => false
    | _ => true

/-- The end of a stall (08 R221, R222; 11 R298): with retry everywhere the region begins again, or the method's batch; with a fail, PAGEFAULT.
A stall of a fetch ends as any other: the region begins again, and the unit is fetched again in its turn (08 R222; DESIGN CHOICE,
notes/assumptions/106.md). -/
def endStall (s : State) (gid fid : Nat) : State :=
  match s.group? gid with
  | none => s
  | some g =>
    match g.frag? fid with
    | none => s
    | some f =>
      match f.wait with
      | some (.stall [] failed lanes fetch) =>
        if stallOver s g f = false then s
        else if failed = [] then
          match g.role with
          | .ordinary => s.setGroup (restartFrag g f true)
          | .service h sg => if allRetried g then replayBatch s h sg else s
        else
          let x := failedLanes f failed lanes fetch
          takeTrap (s.setGroup (g.setFrag { f with wait := none })) gid fid
            { cause := causePage, mask := x.1, addr := x.2, pc := f.pc, resume := f.pc, noEffect := true }
      | _ => s

/-- Ends every stall that is over. -/
def endStalls (s : State) : State :=
  ((s.groups.flatMap fun g => (g.frags.filter (stallOver s g)).map fun f => (g.id, f.id))).foldl (fun s x => endStall s x.1 x.2) s

/-- The completion words of a partition whose records are answered, or found no room, are tried again; one answered with fail stays
unwritten (05 R458). -/
def retryWords (s : State) (part : Nat) : State :=
  match s.part? part with
  | none => s
  | some p =>
    let due := p.words.filter fun w => w.pause.open_.isEmpty
    due.foldl (fun s w =>
      if w.pause.failed.isSome then errLog s part 0x09 causePage w.addr 0 0 w.a w.b
      else completionWord s part w.addr w.value w.rights w.a w.b w.phase)
      (s.modPart part fun p => { p with words := p.words.filter fun w => !w.pause.open_.isEmpty })

/-- Stalls whose records found no room in the fault queue append the rest (08 R221). -/
def retryRecords (s : State) (part : Nat) : State :=
  let waiting := (s.groups.filter fun g => g.part == part).flatMap fun g => g.frags.filterMap fun f => match f.wait with
    | some (.queueFull todo op failed lanes fetch) => some (g.id, f.id, todo, op, failed, lanes, fetch)
    | _ => none
  waiting.foldl (fun s x => stallRecords s x.1 x.2.1 x.2.2.1 x.2.2.2.1 x.2.2.2.2.1 x.2.2.2.2.2.1 x.2.2.2.2.2.2) s

/-- The answer field as it is written (20 R444). -/
def answerWord (seq : Word) (fail : Bool) : Dword := BitVec.ofNat 64 (seq.toNat + if fail then pow2 32 else 0)

/-- FAULT_ANSWER (R221): a record is answered with retry or fail; a number that no open record has is a value out of range, whose write is
ignored (20 R444). -/
def execFaultAnswer (p : Nat) (seq : Word) (fail : Bool) (s : State) : Host.Outcome State Fault Refusal :=
  .next (match s.part? p with
    | none => s
    | some x =>
      match x.faults.find? fun r => r.seq == seq with
      | none => s.modPart p fun y => { y with status := 1 }
      | some r =>
        let s1 := s.modPart p fun y => { y with
          answer := answerWord seq fail, status := 0, faults := y.faults.filter fun z => z.seq != seq }
        retryWords (endStalls (answerAll s1 x seq r.addr (if fail then some r.addr else none))) p)

/-! ### The counts of the rings (20 R447) -/

/-- Whether a count that software writes lies between consumed and produced. -/
def countOk (prod cons n : Word) : Bool := decide ((n - cons).toNat ≤ (prod - cons).toNat)

/-- FAULT_CONSUMED_WRITE (R447): slots are free, stalls that waited for one append their records, and a ring that is still not empty is
signalled. -/
def execFaultConsumedWrite (p : Nat) (n : Word) (s : State) : Host.Outcome State Fault Refusal :=
  .next (match s.part? p with
    | none => s
    | some x =>
      if countOk x.faultProd x.faultCons n then
        retryWords (retryRecords (s.modPart p fun y => { y with
          faultCons := n, status := 0, msiFault := y.msiFault + (if n = y.faultProd then 0 else 1) }) p) p
      else s.modPart p fun y => { y with status := 1 })

/-- ERROR_CONSUMED_WRITE (R447). -/
def execErrorConsumedWrite (p : Nat) (n : Word) (s : State) : Host.Outcome State Fault Refusal :=
  .next (s.modPart p fun y =>
    if countOk y.errProd y.errCons n then { y with errCons := n, status := 0, msiErr := y.msiErr + (if n = y.errProd then 0 else 1) }
    else { y with status := 1 })

/-! ### Actions of the control field (20 R445) -/

/-- Whether a pre-emption runs, and whether an action does: a pre-emption or an invalidation that has not ended. -/
def preempting (p : Part) : Bool := p.tier != .run && p.tier != .halted
def acting (p : Part) : Bool := preempting p || p.invalidating.isSome

/-- What the control field reads: a bit is 1 until its action ends, which a spill, a fill and a run do at once, and bit [4] is a setting. -/
def controlWord (p : Part) : Word :=
  (if preempting p then 1 else 0) ||| (if p.invalidating.isSome then 8 else 0) ||| (if p.snapAllow then 16 else 0)

/-- An action, or status 0x03 while another runs (20 R445). -/
def action (s : State) (p : Nat) (f : Part → State) : State :=
  match s.part? p with
  | none => s
  | some x => if acting x then s.modPart p fun y => { y with status := 3 } else f x

/-- A watch on a page that has been mapped elsewhere is judged as a WAITV from its read; of an evicted team, the WAITV issues again after its
relaunch (12 R321). -/
def rewatch (s : State) (gid fid : Nat) : State :=
  match s.group? gid with
  | none => s
  | some g =>
    match g.frag? fid with
    | none => s
    | some f =>
      match f.wait with
      | some (.watch (.mem k) va n rel cmp _ false pc) =>
        let back := fun (s : State) => s.modGroup gid fun g => g.modFrag fid fun f => { f with wait := none, pc := pc }
        let trap := fun (s : State) (cause : Byte) =>
          takeTrap (back s) gid fid { cause := cause, mask := f.mask, addr := if cause = causeEphviol then 0 else va, pc := pc, resume := pc, noEffect := true }
        let went := translate s (s.rightsOf g) none .load va 0
        if g.role = .ordinary ∧ (s.coreOf g).isNone = true then (match went with | .loc l _ _ => if l = .mem k then s else back s | _ => back s)
        else match went with
        | .access => trap s causeAccess
        | .absent kind => stallFrag (back s) gid fid [(va &&& 0xFFFFFFFFFFFF0000#64, kind, 0)] (f.mask |> lanesOf |>.map fun i => (i, va)) false
        | .loc l tier leaf =>
          if l = .mem k then s
          else if (s.ephGrid g).isSome ∧ tier ≠ 0 then trap s causeEphviol
          else if broken s g.part l then trap (logAccess s g.part l va pc (requesterOf s g)) causeMemerr
          else if refusedRemote l then trap s causeAccess
          else
            let s1 := useLeaves s g.part [.loc l tier leaf] false
            let met := relHolds rel.toNat (8 * n) (natOfBytes (readLocs s1 (nowView s g) l n)) (cmp.toNat % pow2 (8 * n))
            s1.modGroup gid fun g => g.modFrag fid fun f => { f with wait := some (.watch l va n rel cmp (tier == 1) met pc) }
      | _ => s

/-- The accesses of a partition that have been translated and not yet performed: the atomics on their way, the effects that groups hold to the end
of their quanta, the commits of PADDCs, and the stores and posts of the batches that run. -/
def translated (s : State) (p : Nat) : Invalidation :=
  { reqs := ((openRequests s).filter fun r => r.ask.isIntrinsic && r.rights.part == p).map Request.id
    groups := (s.groups.filter fun g => g.part == p).filterMap fun g => match g.logical with
      | some l => if l.held.isEmpty then none else some (g.id, l.quantum)
      | none => none
    outs := ((s.groups.filter fun g => g.part == p).flatMap Group.openCommits).map Out.id
    methods := ((s.groups.filter fun g => g.part == p && g.role != .ordinary && (batchOf s g).any fun b => !b.buffer.isEmpty || !b.posts.isEmpty).map
      Group.id) }

/-- INVALIDATE (R445): the translation caches and block translation caches of a partition are emptied, and watches on remapped pages begin
again; the action ends when every access that may have used an old entry has been performed (08 R219, 12 R321). -/
def execInvalidate (p : Nat) (s : State) : Host.Outcome State Fault Refusal :=
  .next (action s p fun _ =>
    let s1 := s.modPart p fun y => { y with tlb := [], blockTlb := [], invalidating := some (translated s p), status := 0 }
    ((s.groups.filter fun g => g.part == p).flatMap fun g => g.frags.map fun f => (g.id, f.id)).foldl (fun s x => rewatch s x.1 x.2) s1)

/-- RUN (R445): Orrery starts for a partition. -/
def execRun (p : Nat) (s : State) : Host.Outcome State Fault Refusal :=
  .next (action s p fun _ => s.modPart p fun y => { y with running := true, tier := .run, status := 0 })

/-! ### Pre-emption (16 R389) -/

/-- PRE_EMPT (R389): the drain tier begins. -/
def execPreEmpt (p : Nat) (s : State) : Host.Outcome State Fault Refusal :=
  .next (action s p fun _ => s.modPart p fun y => { y with tier := .drain, status := 0 })

/-- Whether a partition has nothing to save: every grid has retired, and engines and homes are idle (16 R389). -/
def drained (s : State) (p : Part) : Bool := atRest s { p with launch := [] }

/-- DRAIN_COMPLETE (R389): the partition halts at once. -/
def execDrainComplete (p : Nat) (s : State) : Host.Outcome State Fault Refusal :=
  .next (s.modPart p fun x => if x.tier = .drain ∧ drained s x = true then { x with tier := .halted, running := false } else x)

/-- The groups of a partition's teams. -/
def partGroups (s : State) (p : Nat) : List Group := s.groups.filter fun g => g.part == p && g.role == .ordinary

/-- Stops at once what R388 names: fragments that are parked, at a join or stalled, outside a handler (16 R388, R389). -/
def stopParked (g : Group) : Group :=
  if g.handler.isSome || g.trapWait.isSome || g.exited then g
  else { g with frags := g.frags.map fun f => if g.parkedFrag f then { f with stopped := true } else f }

/-- A home without what its batches have read of the pools and not written yet: a pool method, or an atomic on an element in a pool, reads again
once it goes on (16 R395; 19 R436). -/
def Home.rereads (h : Home) : Home :=
  { h with found := none, stores := false, closed := h.closed.map fun b => { b with reqs := b.reqs.map fun r => { r with found := none } } }

/-- The batches that run in a partition's homes are abandoned, and will run again from their entries; one whose commit has begun goes on to
its end (11 R300, 16 R395). -/
def abandonBatches (s0 : State) (p : Part) : State :=
  let s : State := { s0 with homes := s0.homes.map fun h => if p.clusters.contains h.num then h.rereads else h }
  ((s.homes.filter fun h => p.clusters.contains h.num).flatMap fun h => (h.batches.filter fun b => !b.commits).map fun b => (h.num, b.sg)).foldl
    (fun s x => replayBatch s x.1 x.2) s

/-- SWAP_BEGIN (R389): homes stop starting batches and running ones are abandoned, engines pause, and parked fragments stop; the others stop
at their next YCHK, or at their TRET. -/
def execSwapBegin (p : Nat) (s : State) : Host.Outcome State Fault Refusal :=
  .next (match s.part? p with
    | none => s
    | some x =>
      if x.tier = .drain then
        let s1 := s.modPart p fun y => { y with tier := .swap }
        let s2 : State := { s1 with groups := s1.groups.map fun g => if g.part = p ∧ g.role = .ordinary then stopParked g else g }
        abandonBatches s2 x
      else s)

/-- SWAP_GRACE_EXPIRY (R389): every fragment that still runs outside a handler is stopped by restart. -/
def execSwapGraceExpiry (p : Nat) (s : State) : Host.Outcome State Fault Refusal :=
  .next (match s.part? p with
    | none => s
    | some x =>
      if x.tier = .swap then
        let s1 := s.modPart p fun y => { y with tier := .force }
        { s1 with groups := s1.groups.map fun g => if g.part = p ∧ g.role = .ordinary then stopByRestart g else g }
      else s)

/-- Whether no tier-3 request of a group, a feeder or a copy queue of a partition is still to be acknowledged: what is paused has none (16 R389,
19 R426). -/
def wiresQuiet (s : State) (p : Part) : Bool :=
  ((partGroups s p.id).all fun g => g.wire.isEmpty && g.strays.all (fun o => o.flits.isEmpty) &&
    g.frags.all fun f => f.wire.isEmpty && f.outs.all fun o => o.flits.isEmpty) &&
  (s.feeders.all fun q => !(p.clusters.contains (q.core / 4)) || q.wire.isEmpty) &&
  s.copies.all fun q => q.part != p.id || (q.wire.isEmpty && q.data.isEmpty)

/-- Whether no commit of a partition is half made: no batch of its homes is committing (11 R300, 16 R395), and the commit of every PADDC that has
issued has been made (18 R418), and no SCATRED stands between the two accesses of an element in a pool (10 R266; 19 R436). -/
def commitsMade (s : State) (p : Part) : Bool :=
  (s.homes.all fun h => !(p.clusters.contains h.num) || !(h.batches.any Batch.commits)) &&
  (s.copies.all fun q => q.part != p.id || q.found.isNone) &&
  (partGroups s p.id).all fun g => g.openCommits.isEmpty

/-- Every core of a partition is halted: every group has stopped, or only waits for results to take its trap (16 R387, R389); nothing of it is
on its way to another device, and no commit is half made. -/
def allStopped (s : State) (p : Part) : Bool :=
  wiresQuiet s p && commitsMade s p &&
  (partGroups s p.id).all fun g => groupStopped g || (p.tier == .force && g.trapWait.isSome) || (s.coreOf g).isNone

/-! ### The exchange of contexts (01 R22; 16 R390) -/

/-- The context of a partition as it stands.  Its launch queues, and the records in them that Orrery has not taken, are no part of it: they stay
with the partition (DESIGN CHOICE, notes/assumptions/83.md). -/
def takeContext (s : State) (p : Part) : Context :=
  let core := fun (c : Nat) => p.clusters.contains (c / 4)
  let gs := s.groups.filter fun g => g.part == p.id
  { grids := s.grids.filter fun d => d.part == p.id && !d.retired
    teams := s.teams.filter fun t => t.part == p.id
    groups := gs
    fifos := s.fifos.filter fun f => core f.core
    feeders := s.feeders.filter fun q => core q.core
    copies := s.copies.filter fun q => q.part == p.id
    mats := s.mats.filter fun q => core q.core
    latches := s.latches.filter fun l => l.members.any fun n => gs.any fun g => g.id == n
    homes := s.homes.filter fun h => p.clusters.contains h.num
    flight := s.flight.filter fun r => p.clusters.contains r.home
    relaunch := p.relaunch
    parked := p.work.map fun w => w.parked.filter fun x => gs.any fun g => g.id == x.1 }

/-- A machine without the context of a partition: its units are gone too, and its parked fragments leave the work queues. -/
def dropContext (s : State) (p : Part) : State :=
  let gone := s.groups.filter fun g => g.part == p.id
  let s1 : State := { dropUnits s p with
    grids := s.grids.filter fun d => d.part != p.id || d.retired
    teams := s.teams.filter fun t => t.part != p.id
    groups := s.groups.filter fun g => g.part != p.id
    latches := s.latches.filter fun l => !(l.members.any fun n => gone.any fun g => g.id == n)
    flight := s.flight.filter fun r => !(p.clusters.contains r.home) }
  s1.modPart p.id fun y => { y with
    relaunch := []
    work := y.work.map fun w => { w with parked := w.parked.filter fun x => !(gone.any fun g => g.id == x.1) } }

/-- A fragment that a restore brings back: it runs again, and its wait is judged again (16 R388). -/
def resumeFrag (s : State) (v : View) (tick : Nat) (f : Frag) : Frag :=
  { f with
    stopped := false, held := false, ready := tick, promoted := none
    wait := f.wait.map fun w => match w with
      | .watch l a n r c t1 false pc => judgeWatch s v l n (.watch l a n r c t1 false pc)
      | _ => w }

/-- Brings a context into a partition whose units are gone: an empty one begins with units at rest (16 R390). -/
def putContext (s : State) (p : Part) (c : Option Context) : State :=
  match c with
  | none => addUnits s p.id p.clusters
  | some c =>
    let s1 : State := { s with
      grids := s.grids ++ c.grids, teams := s.teams ++ c.teams, groups := s.groups ++ c.groups, fifos := s.fifos ++ c.fifos
      feeders := s.feeders ++ c.feeders, copies := s.copies ++ c.copies, mats := s.mats ++ c.mats, latches := s.latches ++ c.latches
      homes := s.homes ++ c.homes, flight := s.flight ++ c.flight }
    let back := fun (g : Group) =>
      if g.part = p.id then { g with frags := g.frags.map (resumeFrag s1 (nowView s1 g) s.tick) } else g
    let s2 : State := { s1 with groups := s1.groups.map back }
    s2.modPart p.id fun y => { y with
      relaunch := c.relaunch
      work := y.work.mapIdx fun i w => { w with parked := w.parked ++ c.parked.getD i [] } }

/-- Whether a saved context is one of a partition with the cores that it has now. -/
def Saved.of (x : Saved) (p : Part) : Bool :=
  x.part == p.id && (x.clusters.all fun c => p.clusters.contains c) && p.clusters.all fun c => x.clusters.contains c

/-- The context that the shadows of a partition's cores hold for it (16 R390). -/
def savedContext (s : State) (p : Part) : Option Context := (s.shadow.find? fun x => x.of p).map Saved.ctx

/-- The shadows of a partition's cores, each of which holds one context, take one, or lose what they hold (16 R390). -/
def setShadow (s : State) (p : Part) (c : Option Context) : State :=
  { s with
    shadow := (s.shadow.filter fun x => !(x.clusters.any fun k => p.clusters.contains k)) ++
      (match c with | none => [] | some x => [{ part := p.id, clusters := p.clusters, ctx := x }]) }

/-- Results that can land do so before a save (11 R300, 16 R387). -/
def landAll (s : State) (p : Nat) : State :=
  { s with groups := s.groups.map fun g => if g.part = p ∧ g.role = .ordinary then landReady g else g }

/-- CONTEXT_EXCHANGE (R22): with every core halted and every engine paused, the context of the partition goes into the shadows, and the one
that they held comes back; an empty one when they held none. -/
def execContextExchange (p : Nat) (s : State) : Host.Outcome State Fault Refusal :=
  .next (match s.part? p with
    | none => s
    | some x =>
      if (x.tier = .swap ∨ x.tier = .force) ∧ allStopped s x = true then
        let s1 := landAll s p
        let paused := s1.copies.filter fun q => q.part == p && q.running.isSome && q.pause.isNone
        let s1 := paused.foldl (fun s q => countEngine s (.copy p q.num) 2 1) s1
        let s2 := putContext (setShadow (dropContext s1 x) x (some (takeContext s1 x))) x (savedContext s1 x)
        s2.modPart p fun y => { y with tier := .run }
      else s)

/-- SPILL (R390): a saved context leaves the shadows for memory of the host, at the image address. -/
def execSpill (p : Nat) (s : State) : Host.Outcome State Fault Refusal :=
  .next (action s p fun x =>
    match s.shadow.find? fun y => y.of x with
    | none => s.modPart p fun y => { y with status := 1 }
    | some c =>
      (setShadow { s with images := s.images.filter (fun i => i.addr != x.image) ++ [sealImage x.image c] } x none).modPart p fun y =>
        { y with status := 0 })

/-- Whether an image passes its checks, the version and the check word, and is a context of the partition's cores (16 R390). -/
def Image.passes (i : Image) (p : Part) : Bool := i.version == 1 && i.check == Config.checkWord i.saved && i.saved.of p

/-- FILL (R390): an image comes back into the shadows; one that fails its checks is refused, and the shadow is unchanged. -/
def execFill (p : Nat) (s : State) : Host.Outcome State Fault Refusal :=
  .next (action s p fun x =>
    match s.images.find? fun i => i.addr == x.image && i.passes x with
    | none => s.modPart p fun y => { y with status := 2 }
    | some i =>
      (setShadow { s with images := s.images.map fun j => if j.addr = i.addr then { j with filled := true } else j } x (some i.saved.ctx)).modPart p
        fun y => { y with status := 0 })

/-! ### The reset of a context (16 R392) -/

/-- Ends the commands of a copy queue with status ABORTED; each completion word is written. -/
def abortQueue (s : State) (p : Nat) (q : CopyQueue) : State :=
  q.items.foldl (fun s i => match i with
    | .cmd c => endCopy s p q.num c errAborted
    | .marker _ => modCopyQ s p q.num fun x => { x with items := x.items.drop 1 }) s

/-- The copy commands that the groups of a partition hold to the ends of their quanta, with their queues (17 R404). -/
def heldCopies (s : State) (p : Nat) : List (Nat × CopyCmd) :=
  (s.groups.filter fun g => g.part == p).flatMap fun g => match g.logical with
    | none => []
    | some l => l.held.filterMap fun e => match e with | .copy n c => some (n, c) | _ => none

/-- Those end with status ABORTED like the commands of the queues, which are empty by then (16 R392). -/
def abortHeld (s : State) (p : Nat) (l : List (Nat × CopyCmd)) : State := l.foldl (fun s x => endCopy s p x.1 x.2 errAborted) s

/-- The requests that a partition's homes hold reply 0xF3, to requesters that still exist (16 R392, 11 R296); an atomic has no status, and its
reply is an error (12 R313; DESIGN CHOICE, notes/assumptions/83.md). -/
def refuseRequests (s : State) (p : Part) : State :=
  let held := s.homes.flatMap fun h =>
    if p.clusters.contains h.num then h.queue ++ (h.bins.flatMap Bin.reqs) ++ (h.closed.flatMap Bin.reqs) ++ (h.batches.flatMap fun b => b.bin.reqs)
    else []
  held.foldl (fun s r => match r.ask with | .intrinsic .. => replyTo s p.id r 0 0 true | _ => replyStatus s p.id r 0xF3) s

/-- The copy queues of a partition go on with the numbers that they have in another state. -/
def keepNumbers (old : State) (part : Nat) (s : State) : State :=
  { s with copies := s.copies.map fun q => match copyQ? old q.part q.num with
    | some x => if q.part = part then { q with nextSeq := x.nextSeq, done := x.done, ahead := x.ahead } else q
    | none => q }

/-- Ends the context that a partition has in the machine: its grids end and retire with status 0x10, copies are aborted, requests are refused, and
its units are as new, but for the numbers of its copy commands (16 R392). -/
def endContext (s : State) (p : Part) : State :=
  let mine := fun (s : State) => s.grids.filter fun d => d.part == p.id && !d.retired
  let s1 := (mine s).foldl (fun s d => endOneGrid s d.id 0x10) s
  let s2 := abortHeld ((s1.copies.filter fun q => q.part == p.id).foldl (fun s q => abortQueue s p.id q) s1) p.id (heldCopies s p.id)
  let s3 := refuseRequests s2 p
  let s4 := (mine s3).foldl retireGrid s3
  keepNumbers s4 p.id (addUnits (dropContext s4 p) p.id p.clusters)

/-- Ends the contexts that a partition has saved, in the shadows and in images: each is brought in and ended as the running one is (16 R392;
DESIGN CHOICE, notes/assumptions/83.md). -/
def endSaved (s : State) (p : Part) : State :=
  let mine := (s.shadow.filter fun x => x.part == p.id) ++ ((s.images.filter fun i => !i.filled && i.saved.part == p.id).map Image.saved)
  let s1 : State := { s with
    shadow := s.shadow.filter fun x => x.part != p.id, images := s.images.filter fun i => i.saved.part != p.id }
  mine.foldl (fun s x => endContext (putContext (dropContext s p) p (some x.ctx)) p) s1

/-- Resets the context of a partition (16 R392): every context that it has ends, queues are emptied but for the launch records that are not taken,
and every save slot is free. -/
def resetContext (s : State) (p : Part) (stage : Byte) : State :=
  let s1 := endContext (errLog s p.id 0x06 stage 0 0 0 (BitVec.ofNat 32 p.id) 0) p
  let s3 := keepNumbers s1 p.id (endSaved s1 p)
  s3.modPart p.id fun y => { y with
    tier := .halted, running := false, slotsUsed := [], relaunch := []
    launch := y.launch.map fun l => { l with items := l.items.filter (fun r => !r.reserved), pause := none }
    work := y.work.map fun w => { w with items := [], parked := [], stamps := [] } }

/-- RESET_DEADLINE_EXPIRY (R389): the exchange has not completed in time. -/
def execResetDeadlineExpiry (p : Nat) (s : State) : Host.Outcome State Fault Refusal :=
  .next (match s.part? p with
    | none => s
    | some x =>
      if x.tier = .swap ∨ x.tier = .force then resetContext s x (if allStopped s x then 3 else 2) else s)

end Sys2Proof.Machine
end

