-- ==== Sys2Proof/Machine/LogicalOrder.lean ====
section
/-!
DEFINITION. Logical order in Ephemeris mode: what the engines of a grid can still do by themselves, the one fragment of a group that is eligible, and
the quantum in which a group goes on after a park (06 R159; 17 R403 to R405).
-/

namespace Sys2Proof.Machine

/-! ### Markers (10 R277) -/

/-- Whether a queue holds a marker, and the marker at a queue's head. -/
def holdsMarker {α : Type} (n : Nat) (l : List (QItem α)) : Bool := l.any fun x => match x with | .marker m => m == n | .cmd _ => false
def headMarker {α : Type} (l : List (QItem α)) : Option Nat := match l with | .marker m :: _ => some m | _ => none

/-! ### What can still happen by itself (17 R405) -/

/-- Whether an event would change the machine. -/
def happens (s : State) (h : State → Host.Outcome State Fault Refusal) : Bool := match h { s with cur := none } with | .next t => t != s | _ => false

/-- The queues that hold a marker behind something else. -/
def blockers (s : State) (n : Nat) : List EngQueue :=
  ((s.feeders.filter fun q => holdsMarker n q.items && headMarker q.items != some n).map fun q => .feeder q.core q.num) ++
  (s.copies.filter fun q => holdsMarker n q.items && headMarker q.items != some n).map fun q => .copy q.part q.num

/-- Whether the feed at the head of a feeder goes on by itself, as far as the grid's own groups are concerned: it is another grid's, it waits for an
answer, an acknowledgement or an atomic, or its next tile has come to be delivered. -/
def feedMoves (s : State) (grid : Nat) (q : Feeder) (x : Feed) : Bool :=
  x.grid != grid || q.pause.isSome || atomicsBefore s x.group x.quantum || !q.wire.isEmpty || happens s (execFeedStart q.core q.num) || happens s (execStreamTileDelivery q.core q.num)

/-- Whether what stands at the head of a queue goes on by itself; a marker does when a queue that holds it back does. -/
def queueMoves (s : State) (grid : Nat) : Nat → EngQueue → Bool
  | 0, _ => true
  | fuel + 1, .feeder core n =>
    match (feeder? s core n).map Feeder.items with
    | some (.cmd x :: _) => (feeder? s core n).any fun q => feedMoves s grid q x
    | some (.marker m :: _) => (blockers s m).isEmpty || (blockers s m).any (queueMoves s grid fuel)
    | _ => false
  | fuel + 1, .copy part n =>
    match (copyQ? s part n).map CopyQueue.items with
    | some (.cmd _ :: _) => true
    | some (.marker m :: _) => (blockers s m).isEmpty || (blockers s m).any (queueMoves s grid fuel)
    | _ => false
  | _ + 1, _ => false

/-- Whether a matrix queue goes on by itself: it holds a command of another grid, or its engine can start or go on with one. -/
def matMoves (s : State) (grid : Nat) (q : MatQueue) : Bool :=
  q.cmds.any fun c => !((s.group? c.group).any (s.inGrid grid)) || happens s (execMatrixEngineStart q.core c.group)

/-- The queue that QWAIT names by a number on a group's core. -/
def queueNamed (s : State) (g : Group) (q : Nat) : Option EngQueue :=
  if q < 16 then some (.copy g.part q) else (s.coreOf g).map fun k => .feeder k (q - 16)

/-- The queues that hold commands of a grid, and those that a fragment of its groups waits for in QWAIT. -/
def queuesOf (s : State) (grid : Nat) : List EngQueue :=
  ((s.feeders.filter fun q => (cmdsOf q.items).any fun f => f.grid == grid).map fun q => .feeder q.core q.num) ++
  ((s.copies.filter fun q => (cmdsOf q.items).any fun c => c.grid == some grid).map fun q => .copy q.part q.num) ++
  (phaseGroups s grid).flatMap fun g => g.frags.filterMap fun f => match f.wait with | some (.queue q _) => queueNamed s g q | _ => none

/-- Whether the engines still do something by themselves for a grid: a command of it, or one that stands before such a command, can go on. -/
def enginesMove (s : State) (grid : Nat) : Bool :=
  ((queuesOf s grid).any (queueMoves s grid (s.feeders.length + s.copies.length + 1))) ||
  ((s.mats.filter fun q => q.cmds.any fun c => (s.group? c.group).any (s.inGrid grid)).any (matMoves s grid)) ||
  s.fifos.any fun f => (f.bound.any fun b => (s.group? b.1).any (s.inGrid grid)) && (f.pause.isSome || happens s (execDeferredDataFetch f.core f.num))

/-- Whether a joint command of a grid waits at its latch: the others may come, and else the latch times out (14 R352). -/
def latchesWait (s : State) (grid : Nat) : Bool :=
  s.mats.any fun q => q.cmds.any fun c => c.latched && (s.group? c.group).any (s.inGrid grid)

/-- Whether a completion word of a grid's copy commands waits on a page (05 R458). -/
def wordsWait (s : State) (grid : Nat) : Bool :=
  s.parts.any fun p => p.words.any fun w => w.phase.any fun x => (s.team? x.1).any fun t => t.grid == grid

/-! ### The eligible fragment (06 R159) -/

/-- Whether a fragment goes on, once the group has come to its quantum: no handler holds it, it waits at no join, and it is not parked, or its
condition holds.  One that stalls on a page is not parked (17 R405; DEDUCED, notes/assumptions/88.md). -/
def canProceed (s : State) (g : Group) (f : Frag) : Bool :=
  !(g.holds f) && !(g.atJoin f) && (f.stalled || !(g.parkedFrag f) || f.wait.any (waitMet s g))

/-- The fragments of a group that are eligible in its quantum. -/
def eligible (s : State) (g : Group) : List Frag := g.frags.filter fun f => canProceed s g f && g.reached f

/-- Whether another group of the phase has still to release the quantum before `q`. -/
def phaseBehind (s : State) (g : Group) (q : Nat) : Bool :=
  (phaseGroups s (gridId s g)).any fun h => h.id != g.id && !(parkedUnmet s h) && h.logical.any fun k => decide (k.quantum < q)

/-- Whether the release that ends a fragment's park may be one of a quantum before `q` though it has not come about: a command which such a
release has handed over and which goes on by itself, or an item which such a release is still to enqueue (17 R405).  The fragment counts as one that
goes on in `q` then, whenever the command completes (DEDUCED, notes/assumptions/108.md). -/
def endsEarlier (s : State) (g : Group) (q : Nat) (f : Frag) : Bool :=
  !(g.holds f) && match f.wait with
  | some (.queue n seq) => !(queueComplete s g n seq) && decide (queueTime s g n seq < q) && enginesMove s (gridId s g)
  | some (.batch n) => !(batchDone s g n) && enginesMove s (gridId s g)
  | some (.deq n ..) => (workQ? s g.part n).any (fun w => w.items.isEmpty) && phaseBehind s g q
  | _ => false

/-- Whether the eligible fragment of a group is still open: its quantum has not begun, a split has come together and is to fuse first (06 R157), or a
park may have ended (DEDUCED, notes/assumptions/108.md). -/
def undecided (s : State) (g : Group) : Bool :=
  g.logical.any fun l => l.ended || !(startsOk s g) || g.splits.any (cameTogether g) || g.frags.any (endsEarlier s g l.quantum)

/-- The fragment that issues in fixed order: the one that has issued so far while it is eligible, and then the one of the lowest lane (06 R159).
When that one splits, its parts and the other fragments are alike, and the one of the lowest lane is chosen afresh (DESIGN CHOICE,
notes/assumptions/105.md). -/
def turnNow (s : State) (g : Group) : Option Nat :=
  let es := eligible s g
  match es.find? fun f => g.turn == some f.id with
  | some f => some f.id
  | none => if undecided s g then none else (lowestFrag es).map Frag.id

/-- The fragment that keeps the turn: while it is open which one is eligible, the one that has issued so far. -/
def keepTurn (s : State) (g : Group) : Option Nat :=
  match turnNow s g with
  | some f => some f
  | none => if undecided s g then g.turn else none

/-! ### The quantum after a park (17 R405) -/

/-- The quanta after which the fragments of a group go on, when none is eligible in its own: their parks have ended with later releases. -/
def laterQuanta (s : State) (g : Group) : List Nat :=
  if (eligible s g).isEmpty && !(undecided s g) then (g.frags.filter (canProceed s g)).map Frag.after else []

/-- A group of which no fragment is eligible in its quantum, though parks of some have ended, goes on at max(own + 1, q' + 1) for the earliest of
their releases: no unit of the quanta between is left to it (17 R405). -/
def goLater (s : State) (g : Group) : Group :=
  match laterQuanta s g with
  | [] => g
  | q :: rest => { g with logical := g.logical.map fun l =>
      { l with quantum := Nat.max l.quantum (rest.foldl Nat.min q + 1), start := Nat.max l.start l.retired } }

/-- Every such group does. -/
def advanceIdle (s : State) : State :=
  { s with groups := s.groups.map fun g => if g.logical.isSome && !g.exited then goLater s g else g }

end Sys2Proof.Machine
end

