-- ==== Sys2Proof/Machine/EphemerisEvents.lean ====
section
/-!
DEFINITION. The events of Ephemeris mode: phases and their commit, the end of a quantum, deadlock, and logical time at a home
(17 R400 to R407).
-/

namespace Sys2Proof.Machine

/-! ### Phases (17 R400, R402) -/

/-- PHASE_START (R400): the teams of the next phase are placed together, when all of them fit. -/
def execPhaseStart (p grid : Nat) (s : State) : Host.Outcome State Fault Refusal :=
  .next (match s.part? p, s.grid? grid with
    | some x, some d =>
      if placesNext s x d then
        match d.phase, nextPhase s x d with
        | some ph, some s1 => s1.modGrid grid fun d => { d with phase := some { ph with running := true } }
        | _, _ => s
      else s
    | _, _ => s)

/-- Whether a command or call of a grid is not complete (17 R402). -/
def gridWorking (s : State) (grid : Nat) : Bool :=
  (s.feeders.any fun q => (cmdsOf q.items).any fun f => f.grid == grid) ||
  (s.mats.any fun q => q.cmds.any fun m => (s.group? m.group).any (s.inGrid grid)) ||
  (s.copies.any fun q => (cmdsOf q.items).any fun c => c.grid == some grid) ||
  (openRequests s).any fun r => r.grid == some grid

/-- A byte of the version table: a global location, the team number, and the byte that the team wrote last in logical order; none where that is
the result of an atomic, which memory holds. -/
structure TableByte where
  key  : Nat
  team : Nat
  val  : Option Byte

/-- The locations of memory that a team's releases of the phase wrote, each once; atomics are not among them (17 R401, R406). -/
def phaseKeys (t : Team) : List Nat :=
  (t.writes.filterMap fun w => if w.key < pow2 80 && !w.atomic then some w.key else none).eraseDups

/-- The byte that a team leaves at a location for the phase's commit: none where an atomic of the team came last, whose result memory holds
(17 R402; DEDUCED, notes/assumptions/21.md). -/
def Team.leaves (t : Team) (k : Nat) : Option Byte := (lastWrite t k fun _ => true).bind fun w => if w.atomic then none else some w.val

/-- What a team leaves in the version table (17 R402). -/
def tableOf (t : Team) : List TableByte := (phaseKeys t).map fun k => { key := k, team := t.num, val := t.leaves k }

/-- Inserts into rising numbers, each once. -/
def insertNat (n : Nat) : List Nat → List Nat
  | [] => [n]
  | x :: r => if n < x then n :: x :: r else if n = x then x :: r else x :: insertNat n r

/-- The 16-byte words of a table, in ascending address order. -/
def tableWordsOf (l : List TableByte) : List Nat := l.foldl (fun ws b => insertNat (b.key / 16) ws) []

/-- The byte that a word's table entries leave at a location: that of the highest-numbered team (17 R402); none when an atomic of that team came
last, whose result memory holds. -/
def winner (l : List TableByte) (k : Nat) : Option Byte :=
  (l.foldl (fun (acc : Option TableByte) b =>
    if b.key = k then (match acc with | none => some b | some a => if a.team < b.team then some b else acc) else acc) none).bind TableByte.val

/-- Whether two teams wrote one byte among some entries. -/
def conflicts (l : List TableByte) : Bool := l.any fun a => l.any fun b => a.key == b.key && a.team != b.team

/-- Commits one word of the table, and logs a conflict record when two teams wrote one of its bytes (17 R402, 20 R448). -/
def commitTableWord (part : Nat) (number : Word) (phase : Nat) (table : List TableByte) (s : State) (w : Nat) : State :=
  let l := table.filter fun b => b.key / 16 == w
  let bytes := (List.range 16).filterMap fun i => (winner l (16 * w + i)).map fun b => (16 * w + i, b)
  let s1 := bytes.foldl (fun s x => placeBytes s (.mem x.1) [x.2]) (keepPast s .none (.mem (16 * w)) 16)
  let s2 : State := if (List.range 16).all (fun i => l.any fun b => b.key == 16 * w + i) then { s1 with memErr := s1.memErr.filter fun n => n != w } else s1
  let s3 := notify s2 0 (.mem (16 * w)) 16
  if conflicts l then
    let lo := l.foldl (fun m b => Nat.min m b.team) (l.head?.map TableByte.team |>.getD 0)
    let hi := l.foldl (fun m b => Nat.max m b.team) 0
    errLog s3 part 0x07 0 (BitVec.ofNat 64 (16 * w)) (BitVec.ofNat 64 (lo + hi * pow2 32)) 0 (BitVec.ofNat 32 phase) number
  else s3

/-- The launches of a phase: the records that its teams' launches reserved are written into their slots (17 R407). -/
def writeReserved (s0 : State) (grid : Nat) : State :=
  let mine : QueuedRecord → Bool := fun r => r.reserved && r.launcher.team.any fun t => s0.teamOf t grid
  let s := (s0.parts.flatMap fun p => p.launch.flatMap fun q => (q.items.filter mine).map fun r => (q, r)).foldl (fun s x => writeSlot s x.1 x.2) s0
  { s with parts := s.parts.map fun p => { p with
      launch := p.launch.map fun q => { q with items := q.items.map fun r => if mine r then { r with reserved := false, bytes := [] } else r } } }

/-- What the releases of a phase have handed over belongs to no release of the next (17 R405). -/
def forgetTimes (s : State) (grid : Nat) : State :=
  { s with
    feeders := s.feeders.map fun q => { q with times := q.times.filter fun x => x.2.2 != grid }
    copies := s.copies.map fun q => { q with times := q.times.filter fun x => x.2.2 != grid }
    parts := s.parts.map fun p => { p with work := p.work.map fun w => { w with
      stamps := w.stamps.map fun x => if x.2 = grid then (0, 0) else x } } }

/-- PHASE_COMMIT (R402): with every group of the phase gone and every command and call complete, the version table is applied, conflict
records are logged, the launches are written, and the next phase may start. -/
def execPhaseCommit (p grid : Nat) (s : State) : Host.Outcome State Fault Refusal :=
  .next (match s.grid? grid with
    | none => s
    | some d =>
      match d.phase with
      | none => s
      | some ph =>
        if d.part ≠ p ∨ ph.running = false ∨ phaseGroups s grid ≠ [] ∨ gridWorking s grid = true then s
        else
          let table := (s.teams.filter fun t => t.grid == grid).flatMap tableOf
          let s1 := (tableWordsOf table).foldl (commitTableWord d.part d.number ph.num table) s
          let s2 := writeReserved s1 grid
          let s3 : State := { s2 with teams := s2.teams.map fun t => if t.grid = grid then { t with writes := [], released := 0 } else t }
          (forgetTimes s3 grid).modGrid grid fun d => { d with phase := some { ph with num := ph.num + 1, running := false, before := [] } })

/-! ### The end of a quantum (17 R401, R403 to R407) -/

/-- Whether another group of the phase lets a release take effect: it has exited, or is parked, or is beyond that quantum, or stands in that
quantum and comes later in group order, so that its own release of it is still to come (17 R404 to R406). -/
def letsRelease (s : State) (q gid : Nat) (h : Group) : Bool :=
  h.exited || parkedUnmet s h ||
  match h.logical with
  | none => true
  | some k => decide (q < k.quantum) || (k.quantum == q && decide (gid < s.gridWideId h))

/-- Whether a group's release is next. -/
def canRelease (s : State) (g : Group) : Bool :=
  match g.logical, s.gridOf g with
  | some l, some d => l.ended && !g.exited && (phaseGroups s d.id).all fun h => h.id == g.id || letsRelease s l.quantum (s.gridWideId g) h
  | _, _ => false

/-- Whether some engine holds the command at its head back for an atomic that is still to be performed (13 R326; 17 R404). -/
def enginesHeld (s : State) : Bool :=
  (s.feeders.any fun q => q.running.isNone && (headFeed q).any fun x => atomicsBefore s x.group x.quantum) ||
  s.copies.any fun q => (headCopy q).any (q.heldBack s)

/-- Whether an effect's queue has room at its release (17 R407): 64 matrix commands, 16 feeds, 64 copy commands; a work queue that agents
outside the grid have filled since the ENQ was judged.  While an engine holds a command back for atomics, whose homes may wait for this very
release, its queues take more: how full they are changes no result (DEDUCED, notes/assumptions/108.md). -/
def roomFor (s : State) (g : Group) (e : Effect) : Bool :=
  match e with
  | .matrix core _ => enginesHeld s || (matQ? s core).all fun q => decide ((q.cmds.filter MatCmd.isCommand).length < 64)
  | .feed core n _ => enginesHeld s || (feeder? s core n).all fun q => decide (countCmds q.items < 16)
  | .copy n _ => enginesHeld s || (copyQ? s g.part n).all fun q => decide (countCmds q.items < 64)
  | .enq n items => (workQ? s g.part n).all fun w => decide (w.items.length + items.length ≤ pow2 w.k)
  | _ => true

/-- The words of tier 0 that a phase's table holds for a die, and how many it can hold (17 R401). -/
def dieCapacity : Nat := 4194304

/-- The global words of some stores, in order, with the virtual address of each. -/
def storeWords (es : List Effect) : List (Nat × Dword) :=
  es.flatMap fun e => match e with
    | .store ps .. => ps.flatMap fun p => match p.loc with
      | .mem k => (List.range ((k % 16 + p.bytes.length + 15) / 16)).map fun i =>
          (k / 16 + i, ((p.addr.toNat / 16 + i) * 16 : Nat))
      | .slice .. => []
    | _ => []

/-- The address of the first word of a release that the version tables of the dies cannot hold (17 R401). -/
def firstOverflow (s : State) (grid : Nat) (es : List Effect) : Option Dword :=
  let ts := s.teams.filter fun t => t.grid == grid
  let new := storeWords es
  if (ts.map fun t => t.writes.length).sum + new.length ≤ dieCapacity then none
  else
    let old := ((ts.flatMap fun t => phaseKeys t).map fun k => k / 16).eraseDups
    (new.foldl (fun (acc : List Nat × Option Dword) w =>
      if acc.2.isSome || acc.1.contains w.1 then acc
      else if (acc.1.filter fun x => Config.dieOf x == Config.dieOf w.1).length < dieCapacity then (acc.1 ++ [w.1], none)
      else (acc.1, some w.2)) (old, none)).2

/-- An effect without its stores to global memory (17 R401). -/
def Effect.sliceOnly (e : Effect) : Effect :=
  match e with
  | .store ps str pc m => .store (ps.filter fun p => match p.loc with | .slice .. => true | .mem _ => false) str pc m
  | _ => e

/-- Performs held effects in program order as far as the engines' queues have room (17 R404, R407). -/
def releaseHeld (gid q : Nat) : List Effect → State → State × List Effect
  | [], s => (s, [])
  | e :: rest, s =>
    match s.group? gid with
    | none => (s, [])
    | some g => if roomFor s g e then releaseHeld gid q rest (perform s gid q e) else (s, e :: rest)

/-- The next quantum of a group, once everything is released; a group that has exited is gone. -/
def nextQuantum (g : Group) (rest : List Effect) : Group :=
  match g.logical with
  | none => g
  | some l =>
    if rest ≠ [] then { g with logical := some { l with held := rest } }
    else if g.frags = [] then { g with exited := true, logical := some { l with held := [] } }
    else { g with logical := some { l with
        held := [], quantum := l.quantum + 1, start := l.endAt, ended := false, leaver := none } }

/-- A group whose EXIT released more than the version table holds has a trap to take, and is there again: its fragment stands at the unit after
the EXIT (17 R401, R403). -/
def Group.comeBack (g : Group) (l : Logical) : Group :=
  match l.leaver with
  | some f => if g.frags = [] then { g with frags := [{ f with split := 0, join := none, outs := [], wait := none }] } else g
  | none => g

/-- The EPHVIOL of a release whose stores the version table cannot hold, on the fragment that ended the quantum (17 R401). -/
def deferTrap (g : Group) (l : Logical) (addr : Dword) : Group :=
  let f? := match g.frag? l.endFrag with | some f => some f | none => lowestFrag g.running
  match f? with
  | none => g
  | some f => g.setFrag { f with
      deferred := some { cause := causeEphviol, mask := f.mask, addr := addr, pc := l.endPc, resume := 0, noEffect := false } }

/-- QUANTUM_END (R403): the held effects of a group's ended quantum are released, in their turn. -/
def execQuantumEnd (gid : Nat) (s : State) : Host.Outcome State Fault Refusal :=
  .next (match s.group? gid with
    | none => s
    | some g =>
      match g.logical, s.gridOf g with
      | some l, some d =>
        if canRelease s g = false then s
        else
          let spills := firstOverflow s d.id l.held
          let held := if spills.isSome then l.held.map Effect.sliceOnly else l.held
          let s0 := match spills with | none => s | some a => s.modGroup gid fun g => deferTrap (g.comeBack l) l a
          let r := releaseHeld gid l.quantum held s0
          r.1.modGroup gid fun g => nextQuantum g r.2
      | _, _ => s)

/-! ### Deadlock (17 R405) -/

/-- Whether a phase stands still: groups are left, every one is parked with no condition met and none stalls, and no command that goes on by itself, no
call, no completion word and no grid of an earlier phase can meet one.  A command that could only go on after a unit of the parked groups meets none
(DEDUCED, notes/assumptions/108.md). -/
def deadlocked (s : State) (grid : Nat) : Bool :=
  let gs := phaseGroups s grid
  !gs.isEmpty && gs.all (parkedUnmet s) && !(enginesMove s grid) && !(latchesWait s grid) && !(wordsWait s grid) &&
    !((openRequests s).any fun r => r.grid == some grid) &&
    !(gs.any fun g => g.frags.any fun f => match f.wait with | some (.grids _) => true | _ => false)

/-- EPHVIOL, no-effect, of a parked group at its parking unit. -/
def trapParked (s : State) (gid : Nat) : State :=
  match s.group? gid with
  | none => s
  | some g =>
    match lowestFrag (g.frags.filter fun f => f.wait.isSome) with
    | none => s
    | some f =>
      takeTrap (s.setGroup (g.setFrag { f with wait := none, pc := f.last })) gid f.id
        { cause := causeEphviol, mask := f.mask, addr := 0, pc := f.last, resume := f.last, noEffect := true }

/-- EPHEMERIS_DEADLOCK (R405). -/
def execEphemerisDeadlock (p grid : Nat) (s : State) : Host.Outcome State Fault Refusal :=
  .next (match s.grid? grid with
    | none => s
    | some d =>
      if d.part = p ∧ (d.phase.any fun ph => ph.running) = true ∧ deadlocked s grid = true then
        ((phaseGroups s grid).map Group.id).foldl trapParked s
      else s)

/-! ### Logical time at a home (17 R406, 11 R290) -/

/-- The quantum of a request in logical time. -/
def Request.quantum (r : Request) : Nat := (r.time.map Prod.fst).getD 0

/-- Whether every group of a grid's phase has released a quantum, or is parked, or has exited (17 R406). -/
def allReleased (s : State) (grid q : Nat) : Bool :=
  (phaseGroups s grid).all fun g => parkedUnmet s g || g.logical.all fun l => decide (q < l.quantum)

/-- The order of requests of one quantum and hop: group, then issue order, which among the requests of one unit is that of their lanes (11 R290;
17 R404, R406; DEDUCED, notes/assumptions/27.md). -/
def timeBefore (a b : Request) : Bool :=
  let ga := (a.time.map Prod.snd).getD 0
  let gb := (b.time.map Prod.snd).getD 0
  decide (ga < gb) || (ga == gb && decide (a.id < b.id))

/-- Inserts a request in that order. -/
def insertByTime (r : Request) : List Request → List Request
  | [] => [r]
  | x :: rest => if timeBefore r x then r :: x :: rest else x :: insertByTime r rest

/-- Quantum, then hops: the posts of the batches of one quantum follow that quantum's requests (17 R406). -/
def Request.timeLt (a b : Request) : Bool := decide (a.quantum < b.quantum) || (a.quantum == b.quantum && decide (a.hops < b.hops))

/-- The requests in logical time of a grid that are at a home, or on their way to it. -/
def timedAt (s : State) (h : Home) (grid : Nat) : List Request :=
  (h.queue ++ s.flight.filter fun r => r.home == h.num).filter fun r => r.time.isSome && r.grid == some grid

/-- The earliest of some requests. -/
def earliest (l : List Request) : Option Request :=
  l.foldl (fun (m : Option Request) r => match m with
    | none => some r
    | some x => if r.timeLt x then some r else some x) none

/-- The requests that a home can apply, in their order: those of the lowest time that it has of some grid, once that quantum is complete and no
request of an earlier time is left anywhere (17 R406). -/
def dueRequests (s : State) (h : Home) : List Request :=
  let grids := ((h.queue ++ s.flight.filter fun r => r.home == h.num).filterMap fun r => if r.time.isSome then r.grid else none).eraseDups
  let due := fun (d : Nat) =>
    let mine := timedAt s h d
    match earliest mine with
    | none => []
    | some x =>
      if allReleased s d x.quantum && !((openRequests s).any fun r => r.grid == some d && r.time.isSome && r.timeLt x) then
        (mine.filter fun r => r.quantum == x.quantum && r.hops == x.hops).foldl (fun l r => insertByTime r l) []
      else []
  ((grids.map due).find? fun l => !l.isEmpty).getD []

/-- The batch that the first of some requests begins: those of its object that follow it, up to 32 of them and to a change of key; a bind stands
alone (11 R289, R290). -/
def cutBatch (l : List Request) : List Request :=
  match l with
  | [] => []
  | r :: rest =>
    if r.ask.isBind then [r]
    else r :: ((rest.filter fun x => x.object == r.object).takeWhile fun x => x.ask == r.ask).take (binSize - 1)

/-- Whether a home takes a batch in: it has entries left for those of its requests that are still on their way, or nothing that it holds could
make room for them (11 R281, R286; DEDUCED, notes/assumptions/22.md). -/
def takesBatch (s : State) (h : Home) (b : List Request) : Bool :=
  h.closed.isEmpty || decide ((b.filter fun r => s.flight.any fun x => x.id == r.id).length ≤ homeRoom s h.num)

/-- HOME_LOGICAL_TIME_APPLY (R406): the next batch is cut from the requests of one quantum in their order, without a window; a request that
was still on its way arrives now (20 R454). -/
def execHomeLogicalTimeApply (home : Nat) (s : State) : Host.Outcome State Fault Refusal :=
  .next (match s.home? home with
    | none => s
    | some h =>
      let rs := cutBatch (dueRequests s h)
      match rs with
      | [] => s
      | r :: _ =>
        if takesBatch s h rs = false then s
        else
          let taken := fun (x : Request) => rs.any fun y => y.id == x.id
          let s1 : State := { s with flight := s.flight.filter fun x => !(taken x) }
          (s1.modHome home fun h =>
            let h1 := h.close fun b => b.object == some r.object
            { h1 with
              queue := h1.queue.filter fun x => !(taken x), nextBin := h1.nextBin + 1
              closed := h1.closed ++ [{ num := h1.nextBin, obj := r.base, ask := r.ask, reqs := rs }] }).count 3 home 0 (s.flight.filter taken).length)

end Sys2Proof.Machine
end

