-- ==== Sys2Proof/Machine/Fabric.lean ====
section
/-!
DEFINITION. Abaja ports and their flits, requests from other devices, and accesses of the host (18 R422, R423; 19 R425 to R436).
-/

namespace Sys2Proof.Machine

/-- A port that is up. -/
def upPort (s : State) (n : Nat) : Option Port := s.dev.ports.find? fun q => q.num == n && q.up

/-! ### Receiving (19 R425 to R427) -/

/-- Whether a sequence number of a virtual lane is one that has not been delivered: within half the number space from the next one expected
there. -/
def isNew (q : Port) (lane : BitVec 2) (seq : BitVec 12) : Bool := decide ((seq - laneSeq q.expect lane).toNat < 2048)

/-- Whether a flit that has come ahead of its turn is one of a lane and number. -/
def isFlit (lane : BitVec 2) (seq : BitVec 12) (x : BitVec 2 × BitVec 12 × FlitBody) : Bool := x.1 == lane && x.2.1 == seq

/-- What a port does with the body of a delivered flit: a request on virtual lane 0 waits to be performed; what the other lanes carry goes to
what sent for it: a collective's data to the members that have it (DESIGN CHOICE, notes/assumptions/75.md). -/
def Port.take (q : Port) (lane : BitVec 2) (body : FlitBody) : Port :=
  match body with | .request r => if lane = 0 then { q with rx := q.rx ++ [r] } else q | .opaqueBytes _ => q

/-- Delivers the flits of a virtual lane that are next in its order; no lane waits for another (19 R425, R426). -/
def deliver (lane : BitVec 2) : Nat → Port → Port
  | 0, q => q
  | fuel + 1, q =>
    match q.early.find? (isFlit lane (laneSeq q.expect lane)) with
    | none => q
    | some (_, n, body) =>
      deliver lane fuel ({ q with expect := bumpLane q.expect lane, early := q.early.filter fun x => !(isFlit lane n x) }.take lane body)

/-- The free space of a lane's buffer, in flits: the buffer is of an open size (19 R427). -/
def laneFree (q : Port) (lane : Nat) : Nat :=
  Config.laneBuffer q.num lane - ((if lane = 0 then q.rx.length else 0) + (q.early.filter fun x => x.1.toNat == lane).length)

/-- Pause is sent when the free space of a lane falls below the headroom of 64 flits, and resume when it rises above 128 (19 R427). -/
def flowControl (q : Port) : Port :=
  let lanes := [0#2, 1#2, 2#2, 3#2]
  { q with pausing := lanes.filter fun l =>
      decide (laneFree q l.toNat < 64) || (q.pausing.contains l && !(decide (128 < laneFree q l.toNat))) }

/-- A group no longer waits for some request flits of a port. -/
def Group.freeWire (port : Nat) (got : BitVec 12 → Bool) (g : Group) : Group :=
  let g1 := g.mapOuts fun o => { o with flits := o.flits.filter fun x => !(x.1 == port && got x.2.1) }
  { g1 with
    wire := g1.wire.filter fun x => !(x.2.1 == port && got x.2.2.1)
    frags := g1.frags.map fun f => { f with wire := f.wire.filter fun x => !(x.1 == port && got x.2) } }

/-- Nothing waits any longer for some request flits of a port: they have been acknowledged, or they are lost (19 R426). -/
def freeWires (s : State) (port : Nat) (got : BitVec 12 → Bool) : State :=
  let keep := fun (x : Nat × BitVec 12 × Dword) => !(x.1 == port && got x.2.1)
  { s with
    groups := s.groups.map (Group.freeWire port got)
    feeders := s.feeders.map fun q => { q with wire := q.wire.filter keep }
    copies := s.copies.map fun q => { q with wire := q.wire.filter keep } }

/-- A collective no longer waits for some flits of its data on a port. -/
def freeData (port : Nat) (got : BitVec 12 → Bool) (s : State) : State :=
  { s with copies := s.copies.map fun q => { q with data := q.data.filter fun x => !(x.1 == port && got x.2) } }

/-- An acknowledgement frees a flit of its lane, and what waited for it (19 R426). -/
def acked (s : State) (port : Nat) (acks : List (BitVec 2 × BitVec 12)) : State :=
  freeData port (fun n => acks.contains (2, n)) (freeWires (modPort s port fun q => { q with
    unacked := q.unacked.filter fun x => !(acks.contains (x.1, x.2.1))
    answers := q.answers.filter fun x => !(acks.contains (1, x.1)) }) port fun n => acks.contains (0, n))

/-- ABAJA_FLIT_RECEIVE (R426): a flit that fails its CRC is discarded; a good one is acknowledged, one that has come before too, and delivered once
and in order. -/
def execAbajaFlitReceive (port : Nat) (flit : Flit) (s : State) : Host.Outcome State Fault Refusal :=
  .next (match upPort s port with
    | none => s
    | some _ =>
      if flit.good = false then s
      else
        let s1 := (acked s port flit.acks).count 7 port 1 1
        modPort s1 port fun q =>
          let q1 : Port :=
            if isNew q flit.lane flit.seq && !(q.early.any (isFlit flit.lane flit.seq)) then
              { q with early := q.early ++ [(flit.lane, flit.seq, flit.body)] }
            else q
          let q1 : Port := { q1 with ackSent := some (flit.lane, flit.seq) }
          flowControl (deliver flit.lane (q1.early.length + 1) q1))

/-- PAUSE (R427): nothing more is sent on a lane. -/
def execPause (port : Nat) (lane : BitVec 2) (s : State) : Host.Outcome State Fault Refusal :=
  .next (match upPort s port with
    | none => s
    | some _ => modPort s port fun q => { q with paused := if q.paused.contains lane then q.paused else q.paused ++ [lane] })

/-- RESUME (R427): the flits that waited on a lane are sent. -/
def execResume (port : Nat) (lane : BitVec 2) (s : State) : Host.Outcome State Fault Refusal :=
  .next (match upPort s port with
    | none => s
    | some q =>
      let waiting := (q.unacked.filter fun x => x.1 == lane && x.2.2 == 0).length
      (modPort s port fun q =>
        { q with paused := q.paused.filter (fun l => l != lane)
                 unacked := q.unacked.map fun x => if x.1 = lane ∧ x.2.2 = 0 then (x.1, x.2.1, 1) else x }).count 7 port 0 waiting)

/-- PORT_TRAINING (R428): a port that is down runs at the lower of the two versions, or stays down below 0x0100; every port is down when the
device becomes ready (20 R443). -/
def execPortTraining (port : Nat) (version : BitVec 16) (peer : BitVec 12) (s : State) : Host.Outcome State Fault Refusal :=
  .next (if ready s = false ∨ version.toNat < 0x0100 then s
  else modPort s port fun q => if q.up then q else { q with up := true, version := 0x0100, peer := peer })

/-! ### A port that goes down (19 R426) -/

/-- The lanes of a result whose requests a port had not delivered; lane 32 stands for every lane of the unit. -/
def lostLanes (o : Out) (port : Nat) : List Nat :=
  let ls := (o.flits.filter fun x => x.1 == port).map fun x => x.2.2
  if ls.contains 32 then o.addrs.map Prod.fst else ls.eraseDups

/-- A result whose requests complete as unreachable: a load traps MEMERR, an atomic's replies are errors, an object request's status is 0xF4,
that of a bind or an unbind too (11 R296, 19 R426, R432). -/
def loseOut (port : Nat) (w0 : Word) (o : Out) : Out :=
  let ls := lostLanes o port
  if ls.isEmpty || o.landed then o
  else
    let flits := o.flits.filter fun x => x.1 != port
    let lose := fun (r : Reply) =>
      if ls.contains r.lane then (match o.kind with
        | .objcall => { r with w0 := w0, w1 := 0xF4 }
        | .kept => { r with w0 := 0xF4, w1 := 0 }
        | _ => { r with err := true }) else r
    match o.kind with
    | .load =>
      let mask := maskOf ls ||| (match o.trap with | none => 0 | some t => t.mask)
      let addr := ((o.addrs.find? fun x => x.1 == lowestLane mask).map Prod.snd).getD 0
      { o with flits := flits, trap := some { cause := causeMemerr, mask := mask, addr := addr, pc := o.pc, resume := 0, noEffect := false } }
    | _ => { o with flits := flits, replies := o.replies.map lose }

/-- The log entries of what a group loses with a port: one for each lane of a load or an atomic (08 R223, 12 R313, 20 R448). -/
def logLost (s : State) (port : Nat) (g : Group) : State :=
  (g.frags.flatMap Frag.outs).foldl (fun s o =>
    match o.kind with
    | .objcall | .kept => s
    | _ => if o.landed then s else (lostLanes o port).foldl (fun s l =>
        errLog s g.part 0x02 causeMemerr (((o.addrs.find? fun x => x.1 == l).map Prod.snd).getD 0) 0 o.pc (requesterOf s g) (BitVec.ofNat 32 port)) s) s

/-- The address of the first request on a port that a queue waits for. -/
def lostAt (port : Nat) (l : List (Nat × BitVec 12 × Dword)) : Option Dword := (l.find? fun x => x.1 == port).map fun x => x.2.2

/-- The log entry of a request that a port had not delivered (20 R448). -/
def logUndelivered (s : State) (part port : Nat) (addr pc : Dword) (req : Word) : State :=
  errLog s part 0x02 causeMemerr addr 0 pc req (BitVec.ofNat 32 port)

/-- The engine commands that wait for requests on a port end with ERRMEM (10 R259, 19 R426). -/
def loseCommands (s : State) (port : Nat) : State :=
  let feeds := s.feeders.filterMap fun q => match headFeed q, lostAt port q.wire with | some x, some a => some (q, x, a) | _, _ => none
  let s1 := feeds.foldl (fun s y =>
    failFeed (logUndelivered s y.2.1.rights.part port y.2.2 0 (feedCtx s y.1.core y.1.num y.2.1).req) y.1.core y.1.num y.2.1 errMem y.2.2) s
  let cmds := s1.copies.filterMap fun q => match headCopy q, lostAt port q.wire with | some c, some a => some (q, c, a) | _, _ => none
  cmds.foldl (fun s y =>
    endCopy (logUndelivered s y.1.part port y.2.2 0 (copyCtx s y.1.part y.1.num y.2.1).req) y.1.part y.1.num y.2.1 errMem) s1

/-- The collectives of the port's partition that are open and have data on it end with ERRMEM: those whose own data is not acknowledged there, and
of the others, which may await data by it, those that a free value names (19 R426, R442; DESIGN CHOICE, notes/assumptions/97.md). -/
def loseCollectives (s : State) (port : Nat) : State :=
  let mine := fun (part : Nat) => s.dev.ports.any fun q => q.num == port && q.owner == some part
  let open_ := s.copies.filterMap fun q => match headCopy q with
    | some c => if c.coll && mine q.part && collOk s (parseColl c.bytes) then some (q, c) else none
    | none => none
  open_.foldl (fun s y =>
    if y.1.data.any (fun x => x.1 == port) then endCopy s y.1.part y.1.num y.2 errMem
    else if Config.collectiveOn s.free then endCopy { s with free := s.free + 1 } y.1.part y.1.num y.2 errMem else { s with free := s.free + 1 }) s

/-- A watch on a word that a port no longer leads to ends in MEMERR; of an evicted team, the WAITV issues again after its relaunch (12 R321). -/
def loseWatch (s : State) (gid fid : Nat) : State :=
  match s.group? gid with
  | none => s
  | some g =>
    match g.frag? fid with
    | none => s
    | some f =>
      match f.wait with
      | some (.watch l va _ _ _ _ _ pc) =>
        let s1 := s.modGroup gid fun g => g.modFrag fid fun f => { f with wait := none, pc := pc, wire := [] }
        if (s.coreOf g).isNone then s1
        else takeTrap (logAccess s1 g.part l va pc (requesterOf s g)) gid fid
          { cause := causeMemerr, mask := f.mask, addr := va, pc := pc, resume := pc, noEffect := true }
      | _ => s

/-- Whether a fragment watches a word of another device that is out of reach, or its registration there was still on a port (12 R321). -/
def watchLost (s : State) (port : Nat) (g : Group) (f : Frag) : Bool :=
  match f.wait with
  | some (.watch l _ _ _ _ _ false _) => locTier l == 3 && (!(reachable s g.part l) || f.wire.any fun x => x.1 == port)
  | _ => false

/-- The stores of a group that a port had not delivered are logged; each may have been performed (19 R426). -/
def logStores (s : State) (port : Nat) (g : Group) : State :=
  ((g.wire.filter fun x => x.2.1 == port).map fun x => (x.2.2.1, x.2.2.2)).eraseDups.foldl (fun s x => logUndelivered s g.part port x.2 0 (requesterOf s g)) s

/-- A port goes down (19 R426, R428): what waits for a request on it is told that its home is unreachable; the requests that it has delivered are
still performed. -/
def portDown (s : State) (port : Nat) : State :=
  let s1 := s.groups.foldl (fun s g => logStores (logLost s port g) port g) s
  let s2 : State := { s1 with
    free := s1.free + 1
    groups := s1.groups.map fun g => g.mapOuts (loseOut port (BitVec.ofNat 32 (Config.openCode s1.free))) }
  let s3 := modPort (loseCollectives (loseCommands s2 port) port) port fun q => { q with
    up := false, version := 0, downs := if q.downs = 0xFFFF#16 then q.downs else q.downs + 1, nextSeq := [0, 0, 0, 0], unacked := [], answers := [],
    expect := [0, 0, 0, 0], early := [], paused := [], pausing := [] }
  let lost := s3.groups.flatMap fun g => (g.frags.filter (watchLost s3 port g)).map fun f => (g.id, f.id)
  freeData port (fun _ => true) (freeWires (lost.foldl (fun s x => loseWatch s x.1 x.2) s3) port fun _ => true)

/-- FLIT_RETRANSMIT_TIMEOUT (R426): the oldest flit that has been sent and not acknowledged is sent again; its eighth attempt takes the port
down. -/
def execFlitRetransmitTimeout (port : Nat) (s : State) : Host.Outcome State Fault Refusal :=
  .next (match upPort s port with
    | none => s
    | some q =>
      match q.unacked.find? fun x => decide (0 < x.2.2) with
      | none => s
      | some x =>
        let s1 := s.count 7 port 2 1
        if 8 ≤ x.2.2 + 1 then portDown s1 port
        else modPort s1 port fun q => { q with
          unacked := q.unacked.map fun y => if y.1 = x.1 ∧ y.2.1 = x.2.1 then (y.1, y.2.1, y.2.2 + 1) else y })

/-! ### Requests of other devices (19 R431, R432) -/

/-- Bytes that a remote request reads or writes at its address. -/
def remoteBytes (o : RemoteOp) : Nat :=
  match o with
  | .load n => n
  | .store d => d.length
  | .atomic _ t _ _ => if t = 2 ∨ t = 3 ∨ t = 5 then 8 else 4
  | _ => 64

/-- Whether a partition exports a range of its memory to a device (19 R431). -/
def admitsRange (p : Part) (dev a n : Nat) : Bool :=
  p.exports.any fun e => decide (e.base ≤ a) && decide (a + n ≤ e.base + e.length) && decide (e.lo ≤ dev) && decide (dev ≤ e.hi)

/-- The tier-0 address that a partition gives a remote request: its own, or the one of the hash window of the same base, of which this device owns
the page (18 R423, 19 R431). -/
def remoteAddress (p : Part) (r : RemoteRequest) : Option Nat :=
  if r.isVirtual then
    match hashWindow? p r.addr.toNat with
    | none => none
    | some h =>
      if h.base ≠ r.window.toNat then none else
      let i := (r.addr.toNat - h.base) / pow2 21
      if hashOwner h i = h.self then some (h.backing + pow2 21 * (i / h.members) + r.addr.toNat % pow2 21) else none
  else some r.addr.toNat

/-- The partition that owns the address of a remote request and admits it, and the location there (19 R431, R437). -/
def admitted? (s : State) (r : RemoteRequest) : Option (Part × Nat) :=
  s.parts.findSome? fun p => match remoteAddress p r with
    | none => none
    | some a =>
      if ownsRange p a (remoteBytes r.op) && admitsRange p r.device.toNat a (remoteBytes r.op) then some (p, a) else none

/-- The source id of a request from another device (19 R432). -/
def remoteSource (r : RemoteRequest) : Word :=
  BitVec.ofNat 32 (2 * pow2 30 + r.device.toNat * pow2 18 + r.requester.toNat * 32 + r.lane.toNat)

/-- The base under which a partition's homes know an object at a location: that of a binding that translates to it (11 R282, 19 R432). -/
def boundBase (s : State) (p : Part) (r : RemoteRequest) (a : Nat) : Dword :=
  let hit := fun (b : Binding) => match translate s b.rights none .load b.base 0 with | .loc l _ _ => l == .mem a | _ => false
  match ((s.homes.filter fun h => p.clusters.contains h.num).flatMap Home.bindings).find? hit with
  | some b => b.base
  | none => r.addr

/-- A request of another device on its way to its home. -/
def remoteHomeRequest (s : State) (port : Nat) (p : Part) (r : RemoteRequest) (a : Nat) (ask : Ask) (op0 op1 : Word) (post : Bool) : State :=
  let base := match ask with | .intrinsic .. => r.addr | _ => boundBase s p r a
  let (id, s1) := s.fresh
  let q : Request :=
    { id := id, home := homeOf s p.id base, source := remoteSource r, lane := r.lane.toNat, base := base, loc := .mem a, ask := ask, op0 := op0,
      op1 := op1, rights := { part := p.id, sys := false }, grid := none, reply := none, pc := 0, group := none, str := 0, frag := id, unit := id, time := none,
      port := if post then none else some port, link := port + 1 }
  { s1 with flight := s1.flight ++ [q] }

/-- Bytes that an agent outside the partition writes to tier 0, one 16-byte word at a time: a part of a word with an error is not written, and
is logged (08 R224, R232). -/
def outsideWrite (s : State) (part : Nat) (k : Nat) (bs : List Byte) : State :=
  let words := (List.range ((k % 16 + bs.length + 15) / 16)).map fun i => k / 16 + i
  words.foldl (fun s w =>
    let lo := Nat.max k (16 * w)
    let hi := Nat.min (k + bs.length) (16 * w + 16)
    if hi - lo < 16 ∧ s.memErr.contains w = true then
      errLog { s with free := s.free + 1 } part 0x01 causeMemerr (BitVec.ofNat 64 lo) 0 0 (BitVec.ofNat 32 (Config.openCode s.free)) 0
    else writeLoc s (.mem lo) ((bs.drop (lo - k)).take (hi - lo))) s

/-- Bytes that an agent outside the partition reads: each 16-byte word with an error is logged (08 R224). -/
def outsideRead (s : State) (part : Nat) (k n : Nat) : State :=
  let words := (List.range ((k % 16 + n + 15) / 16)).map fun i => k / 16 + i
  (words.filter fun w => s.memErr.contains w).foldl (fun s w =>
    errLog { s with free := s.free + 1 } part 0x01 causeMemerr (BitVec.ofNat 64 (Nat.max k (16 * w))) 0 0
      (BitVec.ofNat 32 (Config.openCode s.free)) 0) s

/-- An answer leaves by the port that brought the request, on the response lane. -/
def respond (s : State) (port : Nat) (a : Answer) : State :=
  match upPort s port with
  | none => s
  | some q => sendAnswer s q a

/-- What a load of another device brings back: an error response when a word of it holds an uncorrectable error (08 R223). -/
def loadAnswer (s : State) (k n : Nat) : Answer :=
  if (List.range ((k % 16 + n + 15) / 16)).any fun i => s.memErr.contains (k / 16 + i) then .error else .data (readKeys s k n)

/-- Performs a remote request (19 R431, R432): one that no export range admits is refused, an object request with status 0xF2. -/
def remoteRequest (s : State) (port : Nat) (r : RemoteRequest) : State :=
  match admitted? s r with
  | none => match r.op with
    | .object _ _ _ post =>
      if post then s else respond { s with free := s.free + 1 } port (.words (BitVec.ofNat 32 (Config.openCode s.free)) 0xF2)
    | .bind .. => respond s port (.words 0xF2 0)
    | .unbind => respond s port (.words 0xF2 0)
    | _ => respond s port .refused
  | some (p, a) =>
    match r.op with
    | .load n => respond (outsideRead s p.id a n) port (loadAnswer s a n)
    | .store d => respond (outsideWrite s p.id a d) port .stored
    | .atomic op t x y => remoteHomeRequest s port p r a (.intrinsic op t) x y false
    | .object m x y post => remoteHomeRequest s port p r a (.method m) x y post
    | .bind len sel table => remoteHomeRequest s port p r a (.bind len sel table) 0 0 false
    | .unbind => remoteHomeRequest s port p r a .unbind 0 0 false

/-- REMOTE_REQUEST_ARRIVAL (R431): the oldest request that a port has delivered is performed, or refused. -/
def execRemoteRequestArrival (port : Nat) (s : State) : Host.Outcome State Fault Refusal :=
  .next (match findBy Port.num s.dev.ports port with
    | none => s
    | some q =>
      match q.rx with
      | [] => s
      | r :: rest => remoteRequest (modPort s port fun q => if q.up then flowControl { q with rx := rest } else { q with rx := rest }) port r)

/-! ### The host (19 R434, R435) -/

/-- Bytes of a CXL.mem access. -/
def cxlBytes : Nat := 64

/-- The decoders of a host port with those that the host has written: up to 8 on each of the two ports (19 R434). -/
def setDecoders (old : List HdmDecoder) (port : Nat) (new : List HdmDecoder) : List HdmDecoder :=
  (new.filter fun d => d.port == port && decide (port < 2) && decide (d.num < 8)).foldl
    (fun l d => l.filter (fun x => !(x.port == d.port && x.num == d.num)) ++ [d]) old

/-- The tier-0 address that a host port's decoders give for a range of host addresses in a partition's HDM range (19 R434). -/
def decodeHost (l : List HdmDecoder) (part port addr n : Nat) : Option Nat :=
  (l.find? fun d => d.port == port && d.part == part && decide (d.base ≤ addr) && decide (addr + n ≤ d.base + d.size)).map fun d =>
    d.start + (addr - d.base)

/-- HOST_CXL_ACCESS (R434): a host access to a partition's tier-0 memory, performed at the owning die, at the tier-0 address that the host port's
decoders give.  The range holds what the partition owns and nothing else; how the host sets the decoders up is an input of the event (DEDUCED,
notes/assumptions/100.md). -/
def execHostCxlAccess (h : HostAccess) (write : Bool) (addr : Dword) (data : List Byte) (s : State) : Host.Outcome State Fault Refusal :=
  let s0 : State := { s with dev := { s.dev with hdm := setDecoders s.dev.hdm h.port h.decoders } }
  let n := if write then data.length else cxlBytes
  .next (match s0.part? h.part, decodeHost s0.dev.hdm h.part h.port addr.toNat n with
    | some x, some a =>
      if ownsRange x a n = false then s0
      else if write then outsideWrite s0 h.part a data
      else
        let s1 := outsideRead s0 h.part a cxlBytes
        { s1 with dev := { s1.dev with hostLatch := readKeys s0 a cxlBytes } }
    | _, _ => s0)

/-- POOL_ACCESS_TIMEOUT (R435): the pool behind a host port does not complete the accesses of the next turn. -/
def execPoolAccessTimeout (hostPort : Nat) (s : State) : Host.Outcome State Fault Refusal :=
  .next (if 2 ≤ hostPort ∨ s.dev.poolDown.contains hostPort = true then s
  else { s with dev := { s.dev with poolDown := s.dev.poolDown ++ [hostPort] } })

end Sys2Proof.Machine
end

