-- ==== Sys2Proof/Machine/Scalar.lean ====
section
/-!
DEFINITION. The scalar instructions and the system registers (06 R173 to R179).
-/

namespace Sys2Proof.Machine

/-- A scalar result from the context: s[d] takes it (03 R60). -/
def scalarOp (words : Nat) (d : BitVec 6) (reads : List Nat) (x : Ctx → Word) (s : State) : Host.Outcome State Fault Refusal :=
  runUnit s (fun _ => { words := words, ss := d.toNat :: reads }) fun c => doneG c (c.g.setS d.toNat (x c))

/-- A scalar result of two scalars. -/
def scalar2 (f : Word → Word → Word) (d a b : BitVec 6) (s : State) : Host.Outcome State Fault Refusal :=
  scalarOp 1 d [a.toNat, b.toNat] (fun c => f (c.g.getS a.toNat) (c.g.getS b.toNat)) s

/-- A scalar result of one scalar. -/
def scalar1 (words : Nat) (f : Word → Word) (d a : BitVec 6) (s : State) : Host.Outcome State Fault Refusal :=
  scalarOp words d [a.toNat] (fun c => f (c.g.getS a.toNat)) s

/-- Words of a unit of format L that may have an IMMX. -/
def immWords18 (i : Imm18) : Nat := match i with | .short _ => 1 | .long _ => 2

/-- SADD (R173). -/
def execSadd (d a b : BitVec 6) (s : State) : Host.Outcome State Fault Refusal := scalar2 (salu 0) d a b s

/-- SSUB (R173). -/
def execSsub (d a b : BitVec 6) (s : State) : Host.Outcome State Fault Refusal := scalar2 (salu 1) d a b s

/-- SMUL (R173). -/
def execSmul (d a b : BitVec 6) (s : State) : Host.Outcome State Fault Refusal := scalar2 (salu 2) d a b s

/-- SMULHU (R173). -/
def execSmulhu (d a b : BitVec 6) (s : State) : Host.Outcome State Fault Refusal := scalar2 (salu 3) d a b s

/-- SMULHS (R173). -/
def execSmulhs (d a b : BitVec 6) (s : State) : Host.Outcome State Fault Refusal := scalar2 (salu 4) d a b s

/-- SAND (R173). -/
def execSand (d a b : BitVec 6) (s : State) : Host.Outcome State Fault Refusal := scalar2 (salu 5) d a b s

/-- SOR (R173). -/
def execSor (d a b : BitVec 6) (s : State) : Host.Outcome State Fault Refusal := scalar2 (salu 6) d a b s

/-- SXOR (R173). -/
def execSxor (d a b : BitVec 6) (s : State) : Host.Outcome State Fault Refusal := scalar2 (salu 7) d a b s

/-- SSHL (R173). -/
def execSshl (d a b : BitVec 6) (s : State) : Host.Outcome State Fault Refusal := scalar2 (salu 8) d a b s

/-- SSHR (R173). -/
def execSshr (d a b : BitVec 6) (s : State) : Host.Outcome State Fault Refusal := scalar2 (salu 9) d a b s

/-- SSRA (R173). -/
def execSsra (d a b : BitVec 6) (s : State) : Host.Outcome State Fault Refusal := scalar2 (salu 10) d a b s

/-- SMIN (R173). -/
def execSmin (d a b : BitVec 6) (s : State) : Host.Outcome State Fault Refusal := scalar2 (salu 11) d a b s

/-- SMAX (R173). -/
def execSmax (d a b : BitVec 6) (s : State) : Host.Outcome State Fault Refusal := scalar2 (salu 12) d a b s

/-- SMINU (R173). -/
def execSminu (d a b : BitVec 6) (s : State) : Host.Outcome State Fault Refusal := scalar2 (salu 13) d a b s

/-- SMAXU (R173). -/
def execSmaxu (d a b : BitVec 6) (s : State) : Host.Outcome State Fault Refusal := scalar2 (salu 14) d a b s

/-- SANDN (R173). -/
def execSandn (d a b : BitVec 6) (s : State) : Host.Outcome State Fault Refusal := scalar2 (salu 15) d a b s

/-- SADDI (R174). -/
def execSaddi (d a : BitVec 6) (i : Imm11) (s : State) : Host.Outcome State Fault Refusal :=
  scalar1 (immWords (none : Option Modw) i) (fun x => salu 0 x i.value) d a s

/-- SANDI (R174). -/
def execSandi (d a : BitVec 6) (i : Imm11) (s : State) : Host.Outcome State Fault Refusal :=
  scalar1 (immWords (none : Option Modw) i) (fun x => salu 5 x i.value) d a s

/-- SORI (R174). -/
def execSori (d a : BitVec 6) (i : Imm11) (s : State) : Host.Outcome State Fault Refusal :=
  scalar1 (immWords (none : Option Modw) i) (fun x => salu 6 x i.value) d a s

/-- SXORI (R174). -/
def execSxori (d a : BitVec 6) (i : Imm11) (s : State) : Host.Outcome State Fault Refusal :=
  scalar1 (immWords (none : Option Modw) i) (fun x => salu 7 x i.value) d a s

/-- SSHLI (R174). -/
def execSshli (d a : BitVec 6) (i : BitVec 5) (s : State) : Host.Outcome State Fault Refusal :=
  scalar1 1 (fun x => salu 8 x (i.setWidth 32)) d a s

/-- SSHRI (R174). -/
def execSshri (d a : BitVec 6) (i : BitVec 5) (s : State) : Host.Outcome State Fault Refusal :=
  scalar1 1 (fun x => salu 9 x (i.setWidth 32)) d a s

/-- SSRAI (R174). -/
def execSsrai (d a : BitVec 6) (i : BitVec 5) (s : State) : Host.Outcome State Fault Refusal :=
  scalar1 1 (fun x => salu 10 x (i.setWidth 32)) d a s

/-- SLI (R174). -/
def execSli (d : BitVec 6) (i : Imm18) (s : State) : Host.Outcome State Fault Refusal :=
  scalarOp (immWords18 i) d [] (fun _ => i.value) s

/-- SCLZ (R175). -/
def execSclz (d a : BitVec 6) (s : State) : Host.Outcome State Fault Refusal := scalar1 1 (leadingZeros) d a s

/-- SPOPC (R175). -/
def execSpopc (d a : BitVec 6) (s : State) : Host.Outcome State Fault Refusal := scalar1 1 (fun x => BitVec.ofNat 32 (popCount x)) d a s

/-- SBREV (R175). -/
def execSbrev (d a : BitVec 6) (s : State) : Host.Outcome State Fault Refusal := scalar1 1 (reverseBits) d a s

/-- SSXB (R175). -/
def execSsxb (d a : BitVec 6) (s : State) : Host.Outcome State Fault Refusal := scalar1 1 (fun x => (x.extractLsb' 0 8).signExtend 32) d a s

/-- SSXH (R175). -/
def execSsxh (d a : BitVec 6) (s : State) : Host.Outcome State Fault Refusal := scalar1 1 (fun x => (x.extractLsb' 0 16).signExtend 32) d a s

/-- SMOV (R175). -/
def execSmov (d a : BitVec 6) (s : State) : Host.Outcome State Fault Refusal := scalar1 1 (fun x => x) d a s

/-- SSETP (R176): one result to every lane of the fragment mask. -/
def execSsetp (d : BitVec 4) (a b : BitVec 6) (r : BitVec 4) (s : State) : Host.Outcome State Fault Refusal :=
  runUnit s (fun _ => { ss := [a.toNat, b.toNat] }) fun c =>
    let x := wordRel r (c.g.getS a.toNat) (c.g.getS b.toNat)
    doneG c (setPred c.g d (lanesOf c.f.mask) fun _ => x)

/-- SSEL (R177): judged in the lowest lane of the fragment mask. -/
def execSsel (d a b : BitVec 6) (p : BitVec 4) (s : State) : Host.Outcome State Fault Refusal :=
  scalarOp 1 d [a.toNat, b.toNat] (fun c =>
    if (c.g.getP p.toNat).getLsbD (lowestLane c.f.mask) then c.g.getS a.toNat else c.g.getS b.toNat) s

/-- SMOVV (R178): any lane, in the fragment mask or not. -/
def execSmovv (d : BitVec 6) (a : BitVec 7) (b : BitVec 6) (s : State) : Host.Outcome State Fault Refusal :=
  runUnit s (fun c => { vs := [vr c a], ss := [d.toNat, b.toNat] }) fun c =>
    doneG c (c.g.setS d.toNat (vget c a ((c.g.getS b.toNat).toNat % 32)))

/-! ### System registers (R179) -/

/-- The partition-relative cluster of a group (01 R10). -/
def clusterOf (s : State) (g : Group) : Nat :=
  match s.coreOf g, s.part? g.part with
  | some c, some p => rankIn p.clusters (c / 4)
  | _, _ => 0

/-- The partition-relative core of a group (01 R10). -/
def relCore (s : State) (g : Group) : Nat :=
  match s.coreOf g with
  | some c => 4 * clusterOf s g + c % 4
  | none => 0

/-- sys.clock: cycles since the partition's start, or the group's retired units in Ephemeris mode (06 R179, 17 R403); in a service
group, cycles, or zero in a batch cut from Ephemeris requests (11 R291). -/
def sysClock (s : State) (g : Group) : Nat :=
  let cycles := match s.part? g.part with | none => 0 | some p => s.clock - p.epoch
  match g.role with
  | .service .. =>
    match batchOf s g with
    | some b => if b.bin.reqs.any fun r => r.time.isSome then 0 else cycles
    | none => cycles
  | .ordinary => match g.logical with | some l => l.retired | none => cycles

/-- A 32-bit field of the launch record of a group's grid; zero in a service group (11 R291). -/
def gridField (s : State) (g : Group) (f : Grid → Nat) : Nat := match s.gridOf g with | none => 0 | some d => f d

/-- The registers that are 64 bits wide (06 R179). -/
def sysWide (n : Nat) : Bool := n == 0x008 || n == 0x014 || n == 0x016 || n == 0x01A

/-- The value of a system register (06 R179, 11 R291). -/
def sysRead (c : Ctx) (n : Nat) : Nat :=
  let s := c.s
  let g := c.g
  let team := match g.role with | .ordinary => s.team? g.team | .service .. => none
  let n8 := (g.gang.toNat % 8)
  match n with
  | 0x000 => c.f.mask.toNat
  | 0x001 => g.num
  | 0x002 => match team with | none => 0 | some t => t.num
  | 0x003 => gridField s g fun d => d.number.toNat
  | 0x004 => gridField s g Grid.teams
  | 0x005 => gridField s g fun d => d.record.groups.toNat
  | 0x006 => if n8 = 0 then 1 else n8
  | 0x007 => match g.role with | .ordinary => g.quadrant | .service .. => 0
  | 0x008 => g.gang.toNat
  | 0x00A => relCore s g
  | 0x00B => clusterOf s g
  | 0x00C => gridField s g fun d => d.record.depth.toNat
  | 0x00D => gridField s g fun d => d.record.priority.toNat
  | 0x00E => gridField s g fun d => d.record.arg.toNat % pow2 32
  | 0x00F => gridField s g fun d => d.record.arg.toNat / pow2 32
  | 0x010 => gridField s g fun d => if d.phase.isSome then d.record.quantum.toNat else 0
  | 0x011 => g.regions.toNat
  | 0x012 => g.window
  | 0x013 => 0x0100
  | 0x014 => sysClock s g
  | 0x016 => g.rngkey.toNat
  | 0x018 => g.smscale.toNat
  | 0x019 => g.trap.cause.toNat
  | 0x01A => g.trap.addr.toNat
  | _ => 0

/-- SRSYS (R179): a 64-bit register goes to a pair. -/
def execSrsys (d : BitVec 6) (n : BitVec 11) (s : State) : Host.Outcome State Fault Refusal :=
  runUnit s (fun _ => { ss := if sysWide n.toNat then [d.toNat, d.toNat + 1] else [d.toNat] }) fun c =>
    let x := sysRead c n.toNat
    doneG c (if sysWide n.toNat then c.g.setPair d.toNat (BitVec.ofNat 64 x) else c.g.setS d.toNat (BitVec.ofNat 32 x))

/-- SWSYS (R179): sys.rngkey from a pair and sys.smscale from a scalar are the registers that can be written. -/
def execSwsys (a : BitVec 6) (n : BitVec 11) (s : State) : Host.Outcome State Fault Refusal :=
  runUnit s (fun _ => { ss := if sysWide n.toNat then [a.toNat, a.toNat + 1] else [a.toNat] }) fun c =>
    doneG c (if n.toNat = 0x016 then { c.g with rngkey := c.g.getPair a.toNat } else { c.g with smscale := c.g.getS a.toNat })

end Sys2Proof.Machine
end

