-- ==== Sys2Proof/Machine/Dispatch.lean ====
section
/-! DEFINITION. The dispatch: each instruction and event to its meaning. -/

namespace Sys2Proof.Machine

def exec (i : Instr) (s : State) : Host.Outcome State Fault Refusal :=
  match i with
  | .nop => Sys2Proof.Machine.execNop s
  | .bra x1 x2 x3 x4 => Sys2Proof.Machine.execBra x1 x2 x3 x4 s
  | .brx x1 => Sys2Proof.Machine.execBrx x1 s
  | .call x1 x2 x3 x4 => Sys2Proof.Machine.execCall x1 x2 x3 x4 s
  | .ret x1 => Sys2Proof.Machine.execRet x1 s
  | .jset x1 => Sys2Proof.Machine.execJset x1 s
  | .dbra x1 x2 => Sys2Proof.Machine.execDbra x1 x2 s
  | .exit => Sys2Proof.Machine.execExit s
  | .ychk => Sys2Proof.Machine.execYchk s
  | .rgn x1 => Sys2Proof.Machine.execRgn x1 s
  | .rgnSp x1 => Sys2Proof.Machine.execRgnSp x1 s
  | .trap x1 => Sys2Proof.Machine.execTrap x1 s
  | .tret => Sys2Proof.Machine.execTret s
  | .tretRegion => Sys2Proof.Machine.execTretRegion s
  | .tretAddr x1 => Sys2Proof.Machine.execTretAddr x1 s
  | .brk x1 => Sys2Proof.Machine.execBrk x1 s
  | .wbase x1 => Sys2Proof.Machine.execWbase x1 s
  | .sadd x1 x2 x3 => Sys2Proof.Machine.execSadd x1 x2 x3 s
  | .ssub x1 x2 x3 => Sys2Proof.Machine.execSsub x1 x2 x3 s
  | .smul x1 x2 x3 => Sys2Proof.Machine.execSmul x1 x2 x3 s
  | .smulhu x1 x2 x3 => Sys2Proof.Machine.execSmulhu x1 x2 x3 s
  | .smulhs x1 x2 x3 => Sys2Proof.Machine.execSmulhs x1 x2 x3 s
  | .sand x1 x2 x3 => Sys2Proof.Machine.execSand x1 x2 x3 s
  | .sor x1 x2 x3 => Sys2Proof.Machine.execSor x1 x2 x3 s
  | .sxor x1 x2 x3 => Sys2Proof.Machine.execSxor x1 x2 x3 s
  | .sshl x1 x2 x3 => Sys2Proof.Machine.execSshl x1 x2 x3 s
  | .sshr x1 x2 x3 => Sys2Proof.Machine.execSshr x1 x2 x3 s
  | .ssra x1 x2 x3 => Sys2Proof.Machine.execSsra x1 x2 x3 s
  | .smin x1 x2 x3 => Sys2Proof.Machine.execSmin x1 x2 x3 s
  | .smax x1 x2 x3 => Sys2Proof.Machine.execSmax x1 x2 x3 s
  | .sminu x1 x2 x3 => Sys2Proof.Machine.execSminu x1 x2 x3 s
  | .smaxu x1 x2 x3 => Sys2Proof.Machine.execSmaxu x1 x2 x3 s
  | .sandn x1 x2 x3 => Sys2Proof.Machine.execSandn x1 x2 x3 s
  | .saddi x1 x2 x3 => Sys2Proof.Machine.execSaddi x1 x2 x3 s
  | .sandi x1 x2 x3 => Sys2Proof.Machine.execSandi x1 x2 x3 s
  | .sori x1 x2 x3 => Sys2Proof.Machine.execSori x1 x2 x3 s
  | .sxori x1 x2 x3 => Sys2Proof.Machine.execSxori x1 x2 x3 s
  | .sshli x1 x2 x3 => Sys2Proof.Machine.execSshli x1 x2 x3 s
  | .sshri x1 x2 x3 => Sys2Proof.Machine.execSshri x1 x2 x3 s
  | .ssrai x1 x2 x3 => Sys2Proof.Machine.execSsrai x1 x2 x3 s
  | .sli x1 x2 => Sys2Proof.Machine.execSli x1 x2 s
  | .sclz x1 x2 => Sys2Proof.Machine.execSclz x1 x2 s
  | .spopc x1 x2 => Sys2Proof.Machine.execSpopc x1 x2 s
  | .sbrev x1 x2 => Sys2Proof.Machine.execSbrev x1 x2 s
  | .ssxb x1 x2 => Sys2Proof.Machine.execSsxb x1 x2 s
  | .ssxh x1 x2 => Sys2Proof.Machine.execSsxh x1 x2 s
  | .smov x1 x2 => Sys2Proof.Machine.execSmov x1 x2 s
  | .ssetp x1 x2 x3 x4 => Sys2Proof.Machine.execSsetp x1 x2 x3 x4 s
  | .srsys x1 x2 => Sys2Proof.Machine.execSrsys x1 x2 s
  | .swsys x1 x2 => Sys2Proof.Machine.execSwsys x1 x2 s
  | .smovv x1 x2 x3 => Sys2Proof.Machine.execSmovv x1 x2 x3 s
  | .ssel x1 x2 x3 x4 => Sys2Proof.Machine.execSsel x1 x2 x3 x4 s
  | .vadd x1 x2 x3 x4 => Sys2Proof.Machine.execVadd x1 x2 x3 x4 s
  | .vsub x1 x2 x3 x4 => Sys2Proof.Machine.execVsub x1 x2 x3 x4 s
  | .vmul x1 x2 x3 x4 => Sys2Proof.Machine.execVmul x1 x2 x3 x4 s
  | .vmulhu x1 x2 x3 x4 => Sys2Proof.Machine.execVmulhu x1 x2 x3 x4 s
  | .vmulhs x1 x2 x3 x4 => Sys2Proof.Machine.execVmulhs x1 x2 x3 x4 s
  | .vand x1 x2 x3 x4 => Sys2Proof.Machine.execVand x1 x2 x3 x4 s
  | .vor x1 x2 x3 x4 => Sys2Proof.Machine.execVor x1 x2 x3 x4 s
  | .vxor x1 x2 x3 x4 => Sys2Proof.Machine.execVxor x1 x2 x3 x4 s
  | .vshl x1 x2 x3 x4 => Sys2Proof.Machine.execVshl x1 x2 x3 x4 s
  | .vshr x1 x2 x3 x4 => Sys2Proof.Machine.execVshr x1 x2 x3 x4 s
  | .vsra x1 x2 x3 x4 => Sys2Proof.Machine.execVsra x1 x2 x3 x4 s
  | .vmin x1 x2 x3 x4 => Sys2Proof.Machine.execVmin x1 x2 x3 x4 s
  | .vmax x1 x2 x3 x4 => Sys2Proof.Machine.execVmax x1 x2 x3 x4 s
  | .vminu x1 x2 x3 x4 => Sys2Proof.Machine.execVminu x1 x2 x3 x4 s
  | .vmaxu x1 x2 x3 x4 => Sys2Proof.Machine.execVmaxu x1 x2 x3 x4 s
  | .vandn x1 x2 x3 x4 => Sys2Proof.Machine.execVandn x1 x2 x3 x4 s
  | .vaddh2 x1 x2 x3 x4 => Sys2Proof.Machine.execVaddh2 x1 x2 x3 x4 s
  | .vsubh2 x1 x2 x3 x4 => Sys2Proof.Machine.execVsubh2 x1 x2 x3 x4 s
  | .vmulh2 x1 x2 x3 x4 => Sys2Proof.Machine.execVmulh2 x1 x2 x3 x4 s
  | .vminh2 x1 x2 x3 x4 => Sys2Proof.Machine.execVminh2 x1 x2 x3 x4 s
  | .vmaxh2 x1 x2 x3 x4 => Sys2Proof.Machine.execVmaxh2 x1 x2 x3 x4 s
  | .vminuh2 x1 x2 x3 x4 => Sys2Proof.Machine.execVminuh2 x1 x2 x3 x4 s
  | .vmaxuh2 x1 x2 x3 x4 => Sys2Proof.Machine.execVmaxuh2 x1 x2 x3 x4 s
  | .vmad x1 x2 x3 x4 x5 => Sys2Proof.Machine.execVmad x1 x2 x3 x4 x5 s
  | .vaddi x1 x2 x3 x4 => Sys2Proof.Machine.execVaddi x1 x2 x3 x4 s
  | .vandi x1 x2 x3 x4 => Sys2Proof.Machine.execVandi x1 x2 x3 x4 s
  | .vshli x1 x2 x3 x4 => Sys2Proof.Machine.execVshli x1 x2 x3 x4 s
  | .vshri x1 x2 x3 x4 => Sys2Proof.Machine.execVshri x1 x2 x3 x4 s
  | .vsrai x1 x2 x3 x4 => Sys2Proof.Machine.execVsrai x1 x2 x3 x4 s
  | .vclz x1 x2 x3 => Sys2Proof.Machine.execVclz x1 x2 x3 s
  | .vpopc x1 x2 x3 => Sys2Proof.Machine.execVpopc x1 x2 x3 s
  | .vbrev x1 x2 x3 => Sys2Proof.Machine.execVbrev x1 x2 x3 s
  | .vmov x1 x2 x3 => Sys2Proof.Machine.execVmov x1 x2 x3 s
  | .vnot x1 x2 x3 => Sys2Proof.Machine.execVnot x1 x2 x3 s
  | .viabs x1 x2 x3 => Sys2Proof.Machine.execViabs x1 x2 x3 s
  | .vineg x1 x2 x3 => Sys2Proof.Machine.execVineg x1 x2 x3 s
  | .vbfeu x1 x2 x3 x4 => Sys2Proof.Machine.execVbfeu x1 x2 x3 x4 s
  | .vbfes x1 x2 x3 x4 => Sys2Proof.Machine.execVbfes x1 x2 x3 x4 s
  | .vbfi x1 x2 x3 x4 => Sys2Proof.Machine.execVbfi x1 x2 x3 x4 s
  | .vpermb x1 x2 x3 x4 => Sys2Proof.Machine.execVpermb x1 x2 x3 x4 s
  | .vpermbN4 x1 x2 x3 x4 => Sys2Proof.Machine.execVpermbN4 x1 x2 x3 x4 s
  | .vsetp x1 x2 x3 x4 x5 => Sys2Proof.Machine.execVsetp x1 x2 x3 x4 x5 s
  | .vsel x1 x2 x3 x4 x5 => Sys2Proof.Machine.execVsel x1 x2 x3 x4 x5 s
  | .vmovs x1 x2 x3 => Sys2Proof.Machine.execVmovs x1 x2 x3 s
  | .vins x1 x2 x3 x4 => Sys2Proof.Machine.execVins x1 x2 x3 x4 s
  | .vlane x1 x2 => Sys2Proof.Machine.execVlane x1 x2 s
  | .vmovxr x1 x2 x3 => Sys2Proof.Machine.execVmovxr x1 x2 x3 s
  | .vmovxw x1 x2 x3 => Sys2Proof.Machine.execVmovxw x1 x2 x3 s
  | .vfadd x1 x2 x3 x4 x5 => Sys2Proof.Machine.execVfadd x1 x2 x3 x4 x5 s
  | .vfsub x1 x2 x3 x4 x5 => Sys2Proof.Machine.execVfsub x1 x2 x3 x4 x5 s
  | .vfmul x1 x2 x3 x4 x5 => Sys2Proof.Machine.execVfmul x1 x2 x3 x4 x5 s
  | .vfmin x1 x2 x3 x4 x5 => Sys2Proof.Machine.execVfmin x1 x2 x3 x4 x5 s
  | .vfmax x1 x2 x3 x4 x5 => Sys2Proof.Machine.execVfmax x1 x2 x3 x4 x5 s
  | .vfminn x1 x2 x3 x4 x5 => Sys2Proof.Machine.execVfminn x1 x2 x3 x4 x5 s
  | .vfmaxn x1 x2 x3 x4 x5 => Sys2Proof.Machine.execVfmaxn x1 x2 x3 x4 x5 s
  | .vfsgn x1 x2 x3 x4 x5 => Sys2Proof.Machine.execVfsgn x1 x2 x3 x4 x5 s
  | .vfma x1 x2 x3 x4 x5 => Sys2Proof.Machine.execVfma x1 x2 x3 x4 x5 s
  | .vfsetp x1 x2 x3 x4 x5 x6 => Sys2Proof.Machine.execVfsetp x1 x2 x3 x4 x5 x6 s
  | .vfrcp x1 x2 x3 x4 => Sys2Proof.Machine.execVfrcp x1 x2 x3 x4 s
  | .vfrsq x1 x2 x3 x4 => Sys2Proof.Machine.execVfrsq x1 x2 x3 x4 s
  | .vfsqrt x1 x2 x3 x4 => Sys2Proof.Machine.execVfsqrt x1 x2 x3 x4 s
  | .vfexp2 x1 x2 x3 x4 => Sys2Proof.Machine.execVfexp2 x1 x2 x3 x4 s
  | .vflog2 x1 x2 x3 x4 => Sys2Proof.Machine.execVflog2 x1 x2 x3 x4 s
  | .vfsin x1 x2 x3 x4 => Sys2Proof.Machine.execVfsin x1 x2 x3 x4 s
  | .vfcos x1 x2 x3 x4 => Sys2Proof.Machine.execVfcos x1 x2 x3 x4 s
  | .vftanh x1 x2 x3 x4 => Sys2Proof.Machine.execVftanh x1 x2 x3 x4 s
  | .vcvt x1 x2 x3 x4 => Sys2Proof.Machine.execVcvt x1 x2 x3 x4 s
  | .vfclass x1 x2 x3 x4 => Sys2Proof.Machine.execVfclass x1 x2 x3 x4 s
  | .vhadd x1 x2 x3 x4 x5 => Sys2Proof.Machine.execVhadd x1 x2 x3 x4 x5 s
  | .vhsub x1 x2 x3 x4 x5 => Sys2Proof.Machine.execVhsub x1 x2 x3 x4 x5 s
  | .vhmul x1 x2 x3 x4 x5 => Sys2Proof.Machine.execVhmul x1 x2 x3 x4 x5 s
  | .vhfma x1 x2 x3 x4 x5 => Sys2Proof.Machine.execVhfma x1 x2 x3 x4 x5 s
  | .vhmin x1 x2 x3 x4 x5 => Sys2Proof.Machine.execVhmin x1 x2 x3 x4 x5 s
  | .vhmax x1 x2 x3 x4 x5 => Sys2Proof.Machine.execVhmax x1 x2 x3 x4 x5 s
  | .vdot x1 x2 x3 x4 x5 => Sys2Proof.Machine.execVdot x1 x2 x3 x4 x5 s
  | .vunpk x1 x2 x3 x4 x5 => Sys2Proof.Machine.execVunpk x1 x2 x3 x4 x5 s
  | .vpack x1 x2 x3 x4 x5 => Sys2Proof.Machine.execVpack x1 x2 x3 x4 x5 s
  | .vqnt x1 x2 x3 x4 x5 => Sys2Proof.Machine.execVqnt x1 x2 x3 x4 x5 s
  | .vqntScale x1 x2 x3 x4 => Sys2Proof.Machine.execVqntScale x1 x2 x3 x4 s
  | .rngc x1 x2 x3 x4 x5 => Sys2Proof.Machine.execRngc x1 x2 x3 x4 x5 s
  | .vconf x1 x2 x3 x4 => Sys2Proof.Machine.execVconf x1 x2 x3 x4 s
  | .vshfl x1 x2 x3 x4 => Sys2Proof.Machine.execVshfl x1 x2 x3 x4 s
  | .vshflx x1 x2 x3 x4 => Sys2Proof.Machine.execVshflx x1 x2 x3 x4 s
  | .vshflu x1 x2 x3 x4 => Sys2Proof.Machine.execVshflu x1 x2 x3 x4 s
  | .vshfld x1 x2 x3 x4 => Sys2Proof.Machine.execVshfld x1 x2 x3 x4 s
  | .vred x1 x2 x3 x4 x5 x6 => Sys2Proof.Machine.execVred x1 x2 x3 x4 x5 x6 s
  | .vscan x1 x2 x3 x4 x5 x6 => Sys2Proof.Machine.execVscan x1 x2 x3 x4 x5 x6 s
  | .vscanx x1 x2 x3 x4 x5 x6 => Sys2Proof.Machine.execVscanx x1 x2 x3 x4 x5 x6 s
  | .pand x1 x2 x3 x4 => Sys2Proof.Machine.execPand x1 x2 x3 x4 s
  | .por x1 x2 x3 x4 => Sys2Proof.Machine.execPor x1 x2 x3 x4 s
  | .pxor x1 x2 x3 x4 => Sys2Proof.Machine.execPxor x1 x2 x3 x4 s
  | .pandn x1 x2 x3 x4 => Sys2Proof.Machine.execPandn x1 x2 x3 x4 s
  | .porn x1 x2 x3 x4 => Sys2Proof.Machine.execPorn x1 x2 x3 x4 s
  | .pnot x1 x2 x3 => Sys2Proof.Machine.execPnot x1 x2 x3 s
  | .pfroms x1 x2 x3 => Sys2Proof.Machine.execPfroms x1 x2 x3 s
  | .ptos x1 x2 => Sys2Proof.Machine.execPtos x1 x2 s
  | .ppopc x1 x2 => Sys2Proof.Machine.execPpopc x1 x2 s
  | .pany x1 x2 x3 => Sys2Proof.Machine.execPany x1 x2 x3 s
  | .pall x1 x2 x3 => Sys2Proof.Machine.execPall x1 x2 x3 s
  | .pfirst x1 x2 x3 => Sys2Proof.Machine.execPfirst x1 x2 x3 s
  | .ld8u x1 x2 x3 x4 x5 x6 => Sys2Proof.Machine.execLd8u x1 x2 x3 x4 x5 x6 s
  | .ld8s x1 x2 x3 x4 x5 x6 => Sys2Proof.Machine.execLd8s x1 x2 x3 x4 x5 x6 s
  | .ld16u x1 x2 x3 x4 x5 x6 => Sys2Proof.Machine.execLd16u x1 x2 x3 x4 x5 x6 s
  | .ld16s x1 x2 x3 x4 x5 x6 => Sys2Proof.Machine.execLd16s x1 x2 x3 x4 x5 x6 s
  | .ld32 x1 x2 x3 x4 x5 x6 => Sys2Proof.Machine.execLd32 x1 x2 x3 x4 x5 x6 s
  | .ld64 x1 x2 x3 x4 x5 x6 => Sys2Proof.Machine.execLd64 x1 x2 x3 x4 x5 x6 s
  | .ld128 x1 x2 x3 x4 x5 x6 => Sys2Proof.Machine.execLd128 x1 x2 x3 x4 x5 x6 s
  | .st8 x1 x2 x3 x4 x5 x6 x7 => Sys2Proof.Machine.execSt8 x1 x2 x3 x4 x5 x6 x7 s
  | .st16 x1 x2 x3 x4 x5 x6 x7 => Sys2Proof.Machine.execSt16 x1 x2 x3 x4 x5 x6 x7 s
  | .st32 x1 x2 x3 x4 x5 x6 x7 => Sys2Proof.Machine.execSt32 x1 x2 x3 x4 x5 x6 x7 s
  | .st64 x1 x2 x3 x4 x5 x6 x7 => Sys2Proof.Machine.execSt64 x1 x2 x3 x4 x5 x6 x7 s
  | .st128 x1 x2 x3 x4 x5 x6 x7 => Sys2Proof.Machine.execSt128 x1 x2 x3 x4 x5 x6 x7 s
  | .lds32 x1 x2 x3 x4 x5 => Sys2Proof.Machine.execLds32 x1 x2 x3 x4 x5 s
  | .lds64 x1 x2 x3 x4 x5 => Sys2Proof.Machine.execLds64 x1 x2 x3 x4 x5 s
  | .lds128 x1 x2 x3 x4 x5 => Sys2Proof.Machine.execLds128 x1 x2 x3 x4 x5 s
  | .sts32 x1 x2 x3 x4 => Sys2Proof.Machine.execSts32 x1 x2 x3 x4 s
  | .sts64 x1 x2 x3 x4 => Sys2Proof.Machine.execSts64 x1 x2 x3 x4 s
  | .sts128 x1 x2 x3 x4 => Sys2Proof.Machine.execSts128 x1 x2 x3 x4 s
  | .pld x1 x2 x3 x4 x5 x6 => Sys2Proof.Machine.execPld x1 x2 x3 x4 x5 x6 s
  | .pst x1 x2 x3 x4 => Sys2Proof.Machine.execPst x1 x2 x3 x4 s
  | .atom x1 x2 x3 x4 x5 x6 => Sys2Proof.Machine.execAtom x1 x2 x3 x4 x5 x6 s
  | .red x1 x2 x3 x4 x5 => Sys2Proof.Machine.execRed x1 x2 x3 x4 x5 s
  | .objcall x1 x2 x3 x4 x5 => Sys2Proof.Machine.execObjcall x1 x2 x3 x4 x5 s
  | .objpost x1 x2 x3 x4 => Sys2Proof.Machine.execObjpost x1 x2 x3 x4 s
  | .objbind x1 x2 x3 => Sys2Proof.Machine.execObjbind x1 x2 x3 s
  | .objunbind x1 x2 => Sys2Proof.Machine.execObjunbind x1 x2 s
  | .cret x1 x2 => Sys2Proof.Machine.execCret x1 x2 s
  | .cabort x1 => Sys2Proof.Machine.execCabort x1 s
  | .waitv x1 x2 x3 x4 x5 => Sys2Proof.Machine.execWaitv x1 x2 x3 x4 x5 s
  | .bara x1 x2 x3 => Sys2Proof.Machine.execBara x1 x2 x3 s
  | .barw x1 x2 x3 => Sys2Proof.Machine.execBarw x1 x2 x3 s
  | .baraw x1 x2 x3 => Sys2Proof.Machine.execBaraw x1 x2 x3 s
  | .bari x1 x2 x3 => Sys2Proof.Machine.execBari x1 x2 x3 s
  | .fenceAcq x1 => Sys2Proof.Machine.execFenceAcq x1 s
  | .fenceRel x1 => Sys2Proof.Machine.execFenceRel x1 s
  | .fenceFull x1 => Sys2Proof.Machine.execFenceFull x1 s
  | .xfenceAcq x1 x2 => Sys2Proof.Machine.execXfenceAcq x1 x2 s
  | .xfenceRel x1 x2 => Sys2Proof.Machine.execXfenceRel x1 x2 s
  | .xfenceFull x1 x2 => Sys2Proof.Machine.execXfenceFull x1 x2 s
  | .deq x1 x2 x3 x4 => Sys2Proof.Machine.execDeq x1 x2 x3 x4 s
  | .enq x1 x2 x3 => Sys2Proof.Machine.execEnq x1 x2 x3 s
  | .deqt x1 x2 x3 x4 => Sys2Proof.Machine.execDeqt x1 x2 x3 x4 s
  | .launch x1 x2 x3 x4 => Sys2Proof.Machine.execLaunch x1 x2 x3 x4 s
  | .launchi x1 x2 x3 x4 => Sys2Proof.Machine.execLaunchi x1 x2 x3 x4 s
  | .cwait x1 x2 => Sys2Proof.Machine.execCwait x1 x2 s
  | .gangset x1 => Sys2Proof.Machine.execGangset x1 s
  | .mma x1 x2 x3 x4 x5 => Sys2Proof.Machine.execMma x1 x2 x3 x4 x5 s
  | .mmaGang x1 x2 x3 x4 x5 => Sys2Proof.Machine.execMmaGang x1 x2 x3 x4 x5 s
  | .mmas x1 x2 x3 x4 x5 => Sys2Proof.Machine.execMmas x1 x2 x3 x4 x5 s
  | .mmap x1 x2 x3 x4 => Sys2Proof.Machine.execMmap x1 x2 x3 x4 s
  | .mtr x1 x2 x3 x4 x5 => Sys2Proof.Machine.execMtr x1 x2 x3 x4 x5 s
  | .mzero x1 x2 => Sys2Proof.Machine.execMzero x1 x2 s
  | .mlda x1 x2 => Sys2Proof.Machine.execMlda x1 x2 s
  | .msta x1 x2 => Sys2Proof.Machine.execMsta x1 x2 s
  | .mnorm x1 x2 => Sys2Proof.Machine.execMnorm x1 x2 s
  | .mbatch x1 => Sys2Proof.Machine.execMbatch x1 s
  | .mwait x1 x2 => Sys2Proof.Machine.execMwait x1 x2 s
  | .mlbl x1 x2 x3 => Sys2Proof.Machine.execMlbl x1 x2 x3 s
  | .mstatMax x1 x2 x3 => Sys2Proof.Machine.execMstatMax x1 x2 x3 s
  | .mstatSum x1 x2 x3 => Sys2Proof.Machine.execMstatSum x1 x2 x3 s
  | .mstatFlags x1 x2 x3 => Sys2Proof.Machine.execMstatFlags x1 x2 x3 s
  | .mstatSkip x1 x2 x3 => Sys2Proof.Machine.execMstatSkip x1 x2 x3 s
  | .hbind x1 x2 x3 x4 => Sys2Proof.Machine.execHbind x1 x2 x3 x4 s
  | .feed x1 x2 x3 x4 x5 x6 => Sys2Proof.Machine.execFeed x1 x2 x3 x4 x5 x6 s
  | .feedWb x1 x2 x3 x4 x5 x6 => Sys2Proof.Machine.execFeedWb x1 x2 x3 x4 x5 x6 s
  | .cpy x1 x2 x3 x4 => Sys2Proof.Machine.execCpy x1 x2 x3 x4 s
  | .qfence x1 => Sys2Proof.Machine.execQfence x1 s
  | .qwait x1 x2 x3 => Sys2Proof.Machine.execQwait x1 x2 x3 s
  | .coll x1 x2 x3 x4 => Sys2Proof.Machine.execColl x1 x2 x3 x4 s
  | .paddc x1 x2 x3 x4 x5 => Sys2Proof.Machine.execPaddc x1 x2 x3 x4 x5 s
  | .lsupd x1 x2 => Sys2Proof.Machine.execLsupd x1 x2 s
  | .snap => Sys2Proof.Machine.execSnap s
  | .trapinfo x1 x2 => Sys2Proof.Machine.execTrapinfo x1 x2 s
  | .rdver x1 x2 => Sys2Proof.Machine.execRdver x1 x2 s
  | .powerOnReset => Sys2Proof.Machine.execPowerOnReset s
  | .deviceFunctionReset => Sys2Proof.Machine.execDeviceFunctionReset s
  | .bringUpStageAdvance x1 x2 => Sys2Proof.Machine.execBringUpStageAdvance x1 x2 s
  | .firmwareUpdateWrite x1 => Sys2Proof.Machine.execFirmwareUpdateWrite x1 s
  | .attestationNonceWrite x1 => Sys2Proof.Machine.execAttestationNonceWrite x1 s
  | .partitionAssign x1 => Sys2Proof.Machine.execPartitionAssign x1 s
  | .registerWrite x1 x2 x3 => Sys2Proof.Machine.execRegisterWrite x1 x2 x3 s
  | .preEmpt x1 => Sys2Proof.Machine.execPreEmpt x1 s
  | .drainComplete x1 => Sys2Proof.Machine.execDrainComplete x1 s
  | .swapBegin x1 => Sys2Proof.Machine.execSwapBegin x1 s
  | .swapGraceExpiry x1 => Sys2Proof.Machine.execSwapGraceExpiry x1 s
  | .contextExchange x1 => Sys2Proof.Machine.execContextExchange x1 s
  | .resetDeadlineExpiry x1 => Sys2Proof.Machine.execResetDeadlineExpiry x1 s
  | .spill x1 => Sys2Proof.Machine.execSpill x1 s
  | .fill x1 => Sys2Proof.Machine.execFill x1 s
  | .invalidate x1 => Sys2Proof.Machine.execInvalidate x1 s
  | .snapAllow x1 x2 => Sys2Proof.Machine.execSnapAllow x1 x2 s
  | .run x1 => Sys2Proof.Machine.execRun x1 s
  | .launchSubmit x1 x2 x3 => Sys2Proof.Machine.execLaunchSubmit x1 x2 x3 s
  | .faultAnswer x1 x2 x3 => Sys2Proof.Machine.execFaultAnswer x1 x2 x3 s
  | .faultConsumedWrite x1 x2 => Sys2Proof.Machine.execFaultConsumedWrite x1 x2 s
  | .errorConsumedWrite x1 x2 => Sys2Proof.Machine.execErrorConsumedWrite x1 x2 s
  | .orreryTakeRecord x1 x2 => Sys2Proof.Machine.execOrreryTakeRecord x1 x2 s
  | .queueFencePass x1 x2 => Sys2Proof.Machine.execQueueFencePass x1 x2 s
  | .teamPlacement x1 x2 x3 => Sys2Proof.Machine.execTeamPlacement x1 x2 x3 s
  | .gangSetPlacement x1 x2 x3 => Sys2Proof.Machine.execGangSetPlacement x1 x2 x3 s
  | .gridRetirement x1 x2 => Sys2Proof.Machine.execGridRetirement x1 x2 s
  | .fragmentPromotion x1 x2 => Sys2Proof.Machine.execFragmentPromotion x1 x2 s
  | .teamEviction x1 => Sys2Proof.Machine.execTeamEviction x1 s
  | .relaunchPlacement x1 x2 => Sys2Proof.Machine.execRelaunchPlacement x1 x2 s
  | .forcedEviction x1 => Sys2Proof.Machine.execForcedEviction x1 s
  | .forcedStopDeadline x1 => Sys2Proof.Machine.execForcedStopDeadline x1 s
  | .fragmentFusion x1 x2 => Sys2Proof.Machine.execFragmentFusion x1 x2 s
  | .resultLanding x1 x2 x3 => Sys2Proof.Machine.execResultLanding x1 x2 x3 s
  | .objcallReplyLanding x1 x2 x3 => Sys2Proof.Machine.execObjcallReplyLanding x1 x2 x3 s
  | .atomReplyLanding x1 x2 x3 => Sys2Proof.Machine.execAtomReplyLanding x1 x2 x3 s
  | .homeRequestArrival x1 x2 => Sys2Proof.Machine.execHomeRequestArrival x1 x2 s
  | .combiningWindowExpiry x1 x2 => Sys2Proof.Machine.execCombiningWindowExpiry x1 x2 s
  | .batchStart x1 x2 => Sys2Proof.Machine.execBatchStart x1 x2 s
  | .fastPathBatch x1 => Sys2Proof.Machine.execFastPathBatch x1 s
  | .bindRequest x1 => Sys2Proof.Machine.execBindRequest x1 s
  | .unbindRequest x1 => Sys2Proof.Machine.execUnbindRequest x1 s
  | .alloc x1 => Sys2Proof.Machine.execAlloc x1 s
  | .share x1 => Sys2Proof.Machine.execShare x1 s
  | .release x1 => Sys2Proof.Machine.execRelease x1 s
  | .append x1 => Sys2Proof.Machine.execAppend x1 s
  | .feedStart x1 x2 => Sys2Proof.Machine.execFeedStart x1 x2 s
  | .streamTileDelivery x1 x2 => Sys2Proof.Machine.execStreamTileDelivery x1 x2 s
  | .deferredDataFetch x1 x2 => Sys2Proof.Machine.execDeferredDataFetch x1 x2 s
  | .copy x1 x2 => Sys2Proof.Machine.execCopy x1 x2 s
  | .gather x1 x2 => Sys2Proof.Machine.execGather x1 x2 s
  | .scatter x1 x2 => Sys2Proof.Machine.execScatter x1 x2 s
  | .scatred x1 x2 => Sys2Proof.Machine.execScatred x1 x2 s
  | .transpose x1 x2 => Sys2Proof.Machine.execTranspose x1 x2 s
  | .convert x1 x2 => Sys2Proof.Machine.execConvert x1 x2 s
  | .pad x1 x2 => Sys2Proof.Machine.execPad x1 x2 s
  | .migrate x1 x2 => Sys2Proof.Machine.execMigrate x1 x2 s
  | .matrixEngineStart x1 x2 => Sys2Proof.Machine.execMatrixEngineStart x1 x2 s
  | .rendezvousTimeout x1 => Sys2Proof.Machine.execRendezvousTimeout x1 s
  | .mwaitRelease x1 x2 => Sys2Proof.Machine.execMwaitRelease x1 x2 s
  | .barrierWaitRelease x1 x2 => Sys2Proof.Machine.execBarrierWaitRelease x1 x2 s
  | .waitvRelease x1 x2 => Sys2Proof.Machine.execWaitvRelease x1 x2 s
  | .tier1WaitvPoll x1 x2 => Sys2Proof.Machine.execTier1WaitvPoll x1 x2 s
  | .phaseStart x1 x2 => Sys2Proof.Machine.execPhaseStart x1 x2 s
  | .phaseCommit x1 x2 => Sys2Proof.Machine.execPhaseCommit x1 x2 s
  | .quantumEnd x1 => Sys2Proof.Machine.execQuantumEnd x1 s
  | .ephemerisDeadlock x1 x2 => Sys2Proof.Machine.execEphemerisDeadlock x1 x2 s
  | .homeLogicalTimeApply x1 => Sys2Proof.Machine.execHomeLogicalTimeApply x1 s
  | .abajaFlitReceive x1 x2 => Sys2Proof.Machine.execAbajaFlitReceive x1 x2 s
  | .flitRetransmitTimeout x1 => Sys2Proof.Machine.execFlitRetransmitTimeout x1 s
  | .pause x1 x2 => Sys2Proof.Machine.execPause x1 x2 s
  | .resume x1 x2 => Sys2Proof.Machine.execResume x1 x2 s
  | .portTraining x1 x2 x3 => Sys2Proof.Machine.execPortTraining x1 x2 x3 s
  | .remoteRequestArrival x1 => Sys2Proof.Machine.execRemoteRequestArrival x1 s
  | .hostCxlAccess x1 x2 x3 x4 => Sys2Proof.Machine.execHostCxlAccess x1 x2 x3 x4 s
  | .poolAccessTimeout x1 => Sys2Proof.Machine.execPoolAccessTimeout x1 s
  | .allgather x1 x2 x3 => Sys2Proof.Machine.execAllgather x1 x2 x3 s
  | .redscat x1 x2 x3 => Sys2Proof.Machine.execRedscat x1 x2 x3 s
  | .allred x1 x2 x3 => Sys2Proof.Machine.execAllred x1 x2 x3 s
  | .bcast x1 x2 x3 => Sys2Proof.Machine.execBcast x1 x2 x3 s
  | .collectiveTimeout x1 x2 => Sys2Proof.Machine.execCollectiveTimeout x1 x2 s
  | .snapshotTrigger x1 => Sys2Proof.Machine.execSnapshotTrigger x1 s
  | .snapin => Sys2Proof.Machine.execSnapin s
  | .snapshotLatch => Sys2Proof.Machine.execSnapshotLatch s
  | .snapshotRelease x1 => Sys2Proof.Machine.execSnapshotRelease x1 s
  | .fillCommand x1 x2 => Sys2Proof.Machine.execFillCommand x1 x2 s
  | .undefinedEncoding => Sys2Proof.Machine.execUndefinedEncoding s
  | .powerLoss => Sys2Proof.Machine.execPowerLoss s

end Sys2Proof.Machine
end

