-- ==== Sys2Proof/Machine/Settle.lean ====
section
/-!
DEFINITION. What follows from a turn by itself, before the next: fragments that stop for a pre-emption, waits that end, markers that pass,
feeds that are complete, traps that are taken, teams that are pending relaunch, and teams that leave their cores
(05 R123, R137, R149; 08 R221; 10 R258, R277, R278; 16 R380, R381, R389; 17 R401).
-/

namespace Sys2Proof.Machine

/-! ### Stops and waits -/

/-- Once the swap tier has begun, fragments that park stop at once (16 R388, R389), and so does a parked group of a team that is chosen for a
forced eviction (05 R150). -/
def stopPreempted (s : State) : State :=
  let stopping := fun (part : Nat) => (s.part? part).any fun p => p.tier == .swap || p.tier == .force
  let chosen := fun (team : Nat) => (s.team? team).any fun t => t.chosen.isSome
  { s with groups := s.groups.map fun g =>
      if g.role == .ordinary && (stopping g.part || (g.parked && chosen g.team)) then stopParked g else g }

/-- An invalidation ends once every access that may have used an old entry has been performed: the
atomics among the held effects of a quantum, too, once it has been released (08 R219; 17 R406; 20 R445). -/
def endInvalidations (s : State) : State :=
  let done := fun (x : Invalidation) =>
    !((openRequests s).any fun r => x.reqs.contains r.id) &&
    (x.groups.all fun y => (s.group? y.1).all fun g => g.exited || g.logical.all fun l => decide (y.2 < l.quantum)) &&
    !((openRequests s).any fun r => r.ask.isIntrinsic && x.groups.any fun y => r.group == some y.1 && r.time.any fun z => decide (z.1 ≤ y.2)) &&
    !(s.groups.any fun g => g.openCommits.any fun o => x.outs.contains o.id) && !(s.groups.any fun g => x.methods.contains g.id)
  { s with parts := s.parts.map fun p => if p.invalidating.any done then { p with invalidating := none } else p }

/-- The waits that no event ends: QWAIT, CWAIT, and an HBIND in Ephemeris mode (05 R141, 10 R278, 17 R409). -/
def Wait.isSilent (w : Wait) : Bool := match w with | .queue .. => true | .grids _ => true | .rebind _ => true | _ => false

/-- The fragments of a state, by group and fragment. -/
def allFrags (s : State) (p : Group → Frag → Bool) : List (Nat × Nat) :=
  s.groups.flatMap fun g => (g.frags.filter (p g)).map fun f => (g.id, f.id)

/-- Ends every wait of that kind whose condition holds. -/
def endSilentWaits (s : State) : State :=
  (allFrags s fun _ f => f.wait.any Wait.isSilent).foldl (fun s x => releaseWait s x.1 x.2 Wait.isSilent) s

/-- Serves the fragments parked in DEQ on queues that hold items (05 R137). -/
def serveQueues (s : State) : State :=
  s.parts.foldl (fun s p => (List.range p.work.length).foldl (fun s n =>
    let w := p.work.getD n {}
    if w.items.isEmpty || w.parked.isEmpty then s else serveQueue (w.parked.length + 1) s p.id n) s) s

/-- What the rings and the answers let go on: records that found no room, completion words, and stalls that are over (05 R458, 08 R221). -/
def retryFaults (s : State) : State :=
  let part := fun (s : State) (p : Part) =>
    let full : Frag → Bool := fun f => match f.wait with | some (.queueFull ..) => true | _ => false
    let s1 := if (s.groups.any fun g => g.part == p.id && g.frags.any full) = true then retryRecords s p.id else s
    if (p.words.any fun w => w.pause.open_.isEmpty) = true then retryWords s1 p.id else s1
  endStalls (s.parts.foldl part s)

/-! ### Markers (10 R277) -/

/-- A queue without the marker at its head. -/
def dropMarker {α : Type} (n : Nat) (l : List (QItem α)) : List (QItem α) := if headMarker l = some n then l.drop 1 else l

/-- Whether a marker stands at the head of every queue that holds it. -/
def canPass (s : State) (n : Nat) : Bool :=
  (s.feeders.all fun q => !(holdsMarker n q.items) || headMarker q.items == some n) &&
  s.copies.all fun q => !(holdsMarker n q.items) || headMarker q.items == some n

/-- The markers at the heads of queues. -/
def headMarkers (s : State) : List Nat := s.feeders.filterMap (fun q => headMarker q.items) ++ s.copies.filterMap fun q => headMarker q.items

/-- Markers pass, while some can. -/
def passMarkers : Nat → State → State
  | 0, s => s
  | fuel + 1, s =>
    match (headMarkers s).find? (canPass s) with
    | none => s
    | some n => passMarkers fuel { s with
        feeders := s.feeders.map fun q => { q with items := dropMarker n q.items }
        copies := s.copies.map fun q => { q with items := dropMarker n q.items } }

/-- As many markers as the queues hold. -/
def markerCount (s : State) : Nat :=
  (s.feeders.map fun q => q.items.length - countCmds q.items).sum + (s.copies.map fun q => q.items.length - countCmds q.items).sum

/-- Streams whose last tile is there end their feeds (10 R258). -/
def finishStreams (s : State) : State :=
  (s.fifos.filter fun f => f.bound.isSome).foldl (fun s f => finishStream s f.core f.num) s

/-! ### Traps (16 R380, R381; 17 R401) -/

/-- A trap that waited for the group's results is taken once they have landed (16 R380). -/
def startWaiting (s : State) : State :=
  (s.groups.filter fun g => g.trapWait.isSome).foldl (fun s x =>
    match s.group? x.id with
    | none => s
    | some g => match g.trapWait with
      | none => s
      | some (fid, t, late) => startTrap s { g with trapWait := none } fid t late) s

/-- The EPHVIOL of a release is pending once the fragment's wait has ended; it is taken once the group's results have landed (17 R401).  On the
fragment of a handler it is a context fault, as every trap is there (16 R381). -/
def readyDeferred (s : State) (gid fid : Nat) : State :=
  match s.group? gid with
  | none => s
  | some g =>
    match g.frag? fid with
    | none => s
    | some f =>
      match f.deferred with
      | none => s
      | some t =>
        if f.wait.isSome then s
        else
          let f1 := { f with deferred := none }
          if g.handler.isSome && !(g.holds f) then contextFault (s.setGroup (g.setFrag f1)) gid t.cause t.pc t.addr
          else s.setGroup (g.pend f1 t)

/-- Every pending trap that can be taken is taken (16 R381). -/
def takeTraps (s : State) : State :=
  let s1 := startWaiting ((allFrags s fun _ f => f.deferred.isSome).foldl (fun s x => readyDeferred s x.1 x.2) s)
  ((s1.groups.filter fun g => g.frags.any fun f => !f.pending.isEmpty).map Group.id).foldl takePending s1

/-! ### Teams (05 R123, R148, R149) -/

/-- Whether a parked team that was evicted can go on: a condition holds, or a fragment of it no longer waits (05 R149). -/
def canGoOn (s : State) (t : Team) : Bool :=
  teamMet s t || (groupsOf s t).any fun g => !g.exited && g.frags.any fun f => !(g.parkedFrag f)

/-- Evicted teams that can go on are pending relaunch, in team order among those of one turn (05 R149). -/
def queueRelaunches (s : State) : State :=
  s.teams.foldl (fun s t =>
    match t.place with
    | .evicted .. =>
      if canGoOn s t then s.modPart t.part fun p => if p.relaunch.contains t.id then p else { p with relaunch := p.relaunch ++ [t.id] } else s
    | _ => s) s

/-- A team leaves its core once all its groups have exited and nothing aims at its registers any more (05 R123, 06 R170). -/
def leaveCores (s : State) : State :=
  let done := fun (t : Team) => (match t.place with | .core _ => true | _ => false) &&
    (groupsOf s t).all fun g => g.exited && g.strays.isEmpty && !(engineBusy s g.id)
  { s with teams := s.teams.map fun t => if done t then { t with place := .gone } else t }

/-! ### The whole -/

/-- Something has changed, so that fragments which had to wait are tried again. -/
def tryAgain (s : State) : State :=
  { s with groups := s.groups.map fun g =>
      if g.frags.any Frag.held then { g with frags := g.frags.map fun f => { f with held := false } } else g }

/-- What follows from a turn in which something happened, but for the readiness of the fragments. -/
def settled (s : State) : State :=
  let s1 := retryFaults (serveQueues (endSilentWaits (stopPreempted s)))
  let s2 := finishColls (finishStreams (passMarkers (markerCount s1) s1))
  leaveCores (queueRelaunches (tryAgain (advanceIdle (takeTraps { endInvalidations s2 with cur := none }))))

end Sys2Proof.Machine
end

