-- ==== Sys2Proof/Machine/Turn.lean ====
section
/-!
DEFINITION. One turn of the machine: which fragment of a quadrant issues, the fetch of its unit, the events that happen, and the turn that
comes when nothing is on the agenda (03 R75, R85; 05 R145, R146; 06 R159).  The meaning of an instruction is a parameter here, `ex`.
-/

namespace Sys2Proof.Machine

/-- The meaning of the instructions, as `exec` gives it. -/
abbrev Meaning := Instr → State → Host.Outcome State Fault Refusal

/-! ### Issue selection (05 R145, 06 R159) -/

/-- The class a group's fragments run in (05 R145). -/
def classOf (s : State) (g : Group) : Nat :=
  match g.role with
  | .service .. => 0
  | .ordinary => match s.gridOf g with | none => 0 | some d => if s.isSysGroup g then 0 else d.record.priority.toNat

/-- The fixed fragment order of Ephemeris mode: only the fragment whose turn it is (06 R159). -/
def inOrder (s : State) (g : Group) (f : Frag) : Bool := g.logical.isNone || turnNow s g == some f.id

/-- The issue slot that a group uses: a quadrant of a core, or the slot of its home, numbered from 144 (01 R9, 11 R281). -/
def usesSlot (s : State) (core quadrant : Nat) (g : Group) : Bool :=
  match g.role with
  | .ordinary => s.coreOf g == some core && g.quadrant == quadrant
  | .service h _ => core == 144 + h

/-- The fragments that may issue on a slot, but for those named as not ready. -/
def readyFrags (s : State) (core quadrant : Nat) (busy : List Nat) : List (Group × Frag) :=
  s.groups.flatMap fun g =>
    if usesSlot s core quadrant g then
      (g.frags.filter fun f => couldIssue s g f && !f.held && !(busy.contains f.id) && inOrder s g f).map fun f => (g, f)
    else []

/-- Lexicographic order of two lists of numbers. -/
def lexLt : List Nat → List Nat → Bool
  | x :: xs, y :: ys => decide (x < y) || (x == y && lexLt xs ys)
  | _, _ => false

/-- What R145 compares: a promoted fragment comes first, by its promotion and slot; else class, age, readiness and lowest lane. -/
def issueKey (s : State) (x : Group × Frag) : List Nat :=
  match x.2.promoted with
  | some n => [0, n, x.1.slot, lowestLane x.2.mask]
  | none => [1, classOf s x.1, x.1.age, x.2.ready, lowestLane x.2.mask]

/-- Inserts a fragment in the order of its key. -/
def insertFrag (k : List Nat) (x : Nat × Nat) : List (List Nat × Nat × Nat) → List (List Nat × Nat × Nat)
  | [] => [(k, x)]
  | y :: r => if lexLt k y.1 then (k, x) :: y :: r else y :: insertFrag k x r

/-- Those fragments in the order in which R145 picks them, by group and fragment. -/
def issueOrder (s : State) (l : List (Group × Frag)) : List (Nat × Nat) :=
  (l.foldl (fun acc x => insertFrag (issueKey s x) (x.1.id, x.2.id) acc) []).map Prod.snd

/-! ### Fetch (03 R75, R85 step 1; 08 R218, R221, R223) -/

/-- A trap at step 1, reported at the unit's first word; EPHVIOL reports the address 0 (16 R379). -/
def fetchTrap (s : State) (g : Group) (f : Frag) (cause : Byte) : State :=
  takeTrap s g.id f.id { cause := cause, mask := f.mask, addr := if cause = causeEphviol then 0 else f.pc, pc := f.pc, resume := f.pc, noEffect := true }

/-- The fetch of one word: the word, or the state after the trap or stall it ends in. -/
def fetchWord (s : State) (g : Group) (f : Frag) (a : Dword) : Except State (State × Word) :=
  match translate s (s.rightsOf g) none .fetch a 0 with
  | .access => .error (fetchTrap s g f causeAccess)
  | .absent kind =>
    let record := [(a &&& 0xFFFFFFFFFFFF0000#64, kind, accessByte .fetch (g.role != .ordinary))]
    .error (stallFrag { s with free := s.free + 1 } g.id f.id record [] true)
  | .loc l tier leaf =>
    if (s.ephGrid g).isSome ∧ tier ≠ 0 then .error (fetchTrap s g f causeEphviol)
    else if broken s g.part l then .error (fetchTrap (logAccess s g.part l a f.pc (requesterOf s g)) g f causeMemerr)
    else if refusedRemote l then .error (fetchTrap s g f causeAccess)
    else .ok (useLeaves s g.part [.loc l tier leaf] false, BitVec.ofNat 32 (natOfBytes (readLocs s {} l 4)))

/-- The fetch of a unit's words, as many as it has. -/
def fetchWords (g : Group) (f : Frag) : Nat → List Word → State → Except State (State × List Word)
  | 0, ws, s => .ok (s, ws)
  | n + 1, ws, s =>
    if wantsMore ws then
      match fetchWord s g f (f.pc + BitVec.ofNat 64 (4 * ws.length)) with
      | .error s1 => .error s1
      | .ok (s1, w) => fetchWords g f n (ws ++ [w]) s1
    else .ok (s, ws)

/-- The instruction that words stand for: an encoding that nothing defines is UNDEFINED_ENCODING (03 R84). -/
def instrOf (ws : List Word) : Instr := match decodeWords ws with | .ok i => i | .error _ => .undefinedEncoding

/-- A fragment issues its next unit. -/
def issueFrag (ex : Meaning) (s : State) (gid fid : Nat) : Host.Outcome State Fault Refusal :=
  match s.group? gid with
  | none => .next s
  | some g =>
    match g.frag? fid with
    | none => .next s
    | some f =>
      match fetchWords g f 3 [] s with
      | .error s1 => .next s1
      | .ok (s1, ws) => ex (instrOf ws) { s1 with cur := some (gid, fid) }

/-- Whether a fragment turned out not to be ready (05 R145, R146). -/
def wasHeld (s : State) (gid fid : Nat) : Bool := ((s.group? gid).bind fun g => g.frag? fid).any Frag.held

/-- Whether the next unit of a fragment cannot issue now: a lookahead window or an interlock holds it, or a queue that it feeds is full (05 R145).
The unit is tried, and what it would do is dropped. -/
def mustHold (ex : Meaning) (s : State) (gid fid : Nat) : Bool :=
  match issueFrag ex s gid fid with | .next t => wasHeld t gid fid | _ => false

/-- A fragment at the end of a turn: since when it is ready (05 R145). -/
def markFrag (ex : Meaning) (s : State) (g : Group) (f : Frag) : Frag :=
  if couldIssue s g f then
    if mustHold ex s g.id f.id then { f with unready := true, held := true, promoted := none }
    else if f.unready then { f with unready := false, ready := s.tick } else f
  else { f with unready := true, promoted := none }

/-- Since when each fragment is ready (05 R145), and which fragment issues in fixed order (06 R159). -/
def markReady (ex : Meaning) (s : State) : State :=
  { s with groups := s.groups.map fun g =>
      { g with frags := g.frags.map (markFrag ex s g), turn := if g.logical.isSome then keepTurn s g else g.turn } }

/-- The end of a turn in which something happened. -/
def settle (ex : Meaning) (s : State) : State := markReady ex (settled s)

/-- The first of some fragments that is ready issues. -/
def tryFrags (ex : Meaning) : List (Nat × Nat) → State → Host.Outcome State Fault Refusal
  | [], s => .next { s with cur := none }
  | (gid, fid) :: rest, s =>
    match issueFrag ex s gid fid with
    | .next t => if wasHeld t gid fid then tryFrags ex rest t else .next (settle ex t)
    | o => o

/-! ### Events -/

/-- Whether an instruction is an event of the machine, which no fragment issues. -/
def isEvent (i : Instr) : Bool := match i with | .undefinedEncoding => false | _ => !i.isEncoded

/-- An event happens, and what follows from it. -/
def runEvent (ex : Meaning) (i : Instr) (s : State) : Host.Outcome State Fault Refusal :=
  if isEvent i then
    match ex i { s with cur := none } with
    | .next t => .next (settle ex t)
    | o => o
  else .next (settle ex s)

/-- The pool behind a host port that does not answer fails the accesses of one turn (19 R435). -/
def poolBack (t : Turn) (s : State) : State :=
  match t with
  | .event (.poolAccessTimeout _) => s
  | _ => if s.dev.poolDown = [] then s else { s with dev := { s.dev with poolDown := [] } }

/-- One turn. -/
def runTurn (ex : Meaning) (t : Turn) (s : State) : Host.Outcome State Fault Refusal :=
  match (match t with
    | .event i => runEvent ex i s
    | .issue core quadrant busy => tryFrags ex (issueOrder s (readyFrags s core quadrant busy)) s) with
  | .next u => .next (poolBack t u)
  | o => o

/-! ### What happens when nothing is on the agenda -/

/-- An event with its arguments, as its meaning: a function of the state. -/
abbrev Happening := State → Host.Outcome State Fault Refusal

/-- The landing of a result that has come. -/
def landingOf (gid fid : Nat) (o : Out) : Happening :=
  match o.kind with
  | .objcall => execObjcallReplyLanding gid fid o.id
  | .atom => execAtomReplyLanding gid fid o.id
  | _ => execResultLanding gid fid o.id

/-- The events of fragments and groups that need nothing from outside: landings, ends of waits, fusions, and quantum ends. -/
def groupEvents (s : State) : List Happening :=
  s.groups.flatMap fun g =>
    (g.frags.flatMap fun f => (f.outs.filter Out.hasCome).map (landingOf g.id f.id)) ++
    ((g.strays.filter Out.hasCome).map (landingOf g.id 0)) ++
    (g.frags.filterMap fun f => match f.wait with
      | some (.batch _) => some (execMwaitRelease g.id f.id)
      | some (.phase ..) => some (execBarrierWaitRelease g.id f.id)
      | some (.watch ..) => some (execWaitvRelease g.id f.id)
      | _ => none) ++
    (g.splits.map fun x => execFragmentFusion g.id x.id) ++
    (if g.ended && !g.exited then [execQuantumEnd g.id] else [])

/-- The events of the engines. -/
def engineEvents (s : State) : List Happening :=
  ((s.feeders.filter fun q => !q.items.isEmpty).flatMap fun q => [execFeedStart q.core q.num, execStreamTileDelivery q.core q.num]) ++
  ((s.fifos.filter fun f => !f.tiles.isEmpty).map fun f => execDeferredDataFetch f.core f.num) ++
  (s.mats.flatMap fun q => (q.cmds.map MatCmd.group).eraseDups.map fun g => execMatrixEngineStart q.core g) ++
  ((s.copies.filter fun q => !q.items.isEmpty).flatMap fun q =>
    [execCopy q.part q.num, execGather q.part q.num, execScatter q.part q.num, execScatred q.part q.num, execTranspose q.part q.num, execConvert q.part q.num,
     execFillCommand q.part q.num, execPad q.part q.num, execMigrate q.part q.num])

/-- The events of the homes, of the ports and of the snapshot logic. -/
def homeEvents (s : State) : List Happening :=
  (s.homes.flatMap fun h =>
    let coming := (s.flight.filter fun r => r.home == h.num).map Request.id
    (if coming.isEmpty then [] else [execHomeRequestArrival h.num coming]) ++
    (if h.queue.isEmpty && !(s.flight.any fun r => r.home == h.num && r.time.isSome) then [] else [execHomeLogicalTimeApply h.num]) ++
    (if h.closed.isEmpty then [] else
      [execFastPathBatch h.num, execBindRequest h.num, execUnbindRequest h.num, execAlloc h.num, execShare h.num, execRelease h.num, execAppend h.num] ++
      (List.range 4).map fun k => execBatchStart h.num k) ++
    (h.batches.filter fun b => b.pause.isSome).map fun b => execBatchStart h.num b.sg) ++
  ((s.dev.ports.filter fun q => !q.rx.isEmpty).map fun q => execRemoteRequestArrival q.num) ++
  (if s.dev.snap.pending || s.parts.any fun p => p.snap.pending then [execSnapshotLatch] else [])

/-- Cores for the next gang set of a grid: as many on each core of the first cluster that holds it as it takes (05 R134). -/
def gangCores (s : State) (p : Part) (d : Grid) : List Nat :=
  match setSizeOf s p d with
  | none => []
  | some n => match p.clusters.find? fun c => decide (n ≤ coresCan s (coresOf c) d.record n) with
    | none => []
    | some c => ((coresOf c).flatMap fun k => List.replicate (coreCan s k d.record n) k).take n

/-- The events of Orrery. -/
def orreryEvents (s : State) : List Happening :=
  s.parts.flatMap fun p =>
    ((List.range p.launch.length).filter fun q => !(p.launch.getD q {}).items.isEmpty).flatMap (fun q =>
      [execOrreryTakeRecord p.id q, execQueueFencePass p.id q]) ++
    (p.relaunch.flatMap fun t => (partCores p).map fun c => execRelaunchPlacement t c) ++
    ((s.grids.filter fun d => d.part == p.id && !d.retired).flatMap fun d =>
      if d.phase.isSome then [execPhaseStart p.id d.id, execPhaseCommit p.id d.id, execGridRetirement p.id d.id, execEphemerisDeadlock p.id d.id]
      else if d.record.gangPref = 0 then ((partCores p).map fun c => execTeamPlacement p.id d.id c) ++ [execGridRetirement p.id d.id]
      else [execGangSetPlacement p.id d.id (gangCores s p d), execGridRetirement p.id d.id]) ++
    (match p.tier with
      | .drain => [execDrainComplete p.id]
      | .swap => [execContextExchange p.id]
      | .force => [execContextExchange p.id]
      | _ => [])

/-- Every event that the machine can come to by itself, whatever the time. -/
def ownEvents (s : State) : List Happening := groupEvents s ++ engineEvents s ++ homeEvents s ++ orreryEvents s

/-- The events that time brings and the rules promise: windows close, pools are polled, fragments that wait to issue are promoted, and teams
make room for others (05 R145, R148 to R151; 11 R287; 12 R321). -/
def promisedEvents (s : State) : List Happening :=
  (s.homes.flatMap fun h => h.bins.map fun b => execCombiningWindowExpiry h.num b.num) ++
  (s.groups.flatMap fun g => (g.frags.filter Frag.watching).map fun f => execTier1WaitvPoll g.id f.id) ++
  (s.groups.flatMap fun g => g.frags.map fun f => execFragmentPromotion g.id f.id) ++
  s.teams.flatMap fun t => if t.chosen.isSome then [execForcedStopDeadline t.id, execForcedEviction t.id] else [execTeamEviction t.id, execForcedEviction t.id]

/-- The events that time brings when something does not come: deadlines and timeouts. -/
def timeouts (s : State) : List Happening :=
  (s.latches.flatMap fun l => l.arrived.map fun c => execRendezvousTimeout c.group) ++
  ((s.copies.filter fun q => !q.items.isEmpty).map fun q => execCollectiveTimeout q.part q.num) ++
  ((s.dev.ports.filter fun q => !q.unacked.isEmpty).map fun q => execFlitRetransmitTimeout q.num) ++
  s.parts.filterMap fun p => match p.tier with
    | .drain => some (execSwapBegin p.id)
    | .swap => some (execSwapGraceExpiry p.id)
    | .force => some (execResetDeadlineExpiry p.id)
    | _ => none

/-- A list from a place on, and then what stands before it. -/
def rotate {α : Type} (k : Nat) (l : List α) : List α := l.drop (k % Nat.max 1 l.length) ++ l.take (k % Nat.max 1 l.length)

/-- The first of some events that happens, beginning at a place that moves on with a count, so that none is passed over for ever. -/
def firstEvent (s : State) (k : Nat) (l : List Happening) : Option Happening := (rotate k l).find? (happens s)

/-- The slot of a group that holds a fragment which may issue, from a place among the groups that moves on with a count. -/
def firstSlot (s : State) (k : Nat) : Option (Nat × Nat) :=
  (rotate k s.groups).findSome? fun g =>
    let slot := match g.role with | .service h _ => some (144 + h, 0) | .ordinary => (s.coreOf g).map fun c => (c, g.quadrant)
    slot.bind fun x => if (readyFrags s x.1 x.2 []).isEmpty then none else some x

/-- A turn that an event takes, and what follows from it. -/
def runHappening (ex : Meaning) (h : Happening) (s : State) : Host.Outcome State Fault Refusal :=
  match h { s with cur := none } with
  | .next t => .next (poolBack (.issue 0 0 []) (settle ex t))
  | o => o

/-- The turn that comes when the agenda is empty.  An event of the machine's own and an issue come by turns, each where the other has nothing to
do, each kind from a place that moves on by one from each of its turns to the next; every 64th turn looks first for an event that is promised in
time; what else time brings comes when nothing else does (05 R146, R151; DESIGN
CHOICE, notes/assumptions/45.md). -/
def runOwn (ex : Meaning) (s : State) : Host.Outcome State Fault Refusal :=
  let k := s.tick / 2
  let n := 31 * (s.tick / 64) + s.tick % 64 / 2
  let issue := fun (x : Nat × Nat) => runTurn ex (.issue x.1 x.2 []) s
  let rest := match firstEvent s k (promisedEvents s ++ timeouts s) with
    | some h => runHappening ex h s
    | none => runTurn ex (.issue 0 0 []) s
  let promised := if s.tick % 64 = 0 then firstEvent s (s.tick / 64) (promisedEvents s) else none
  match promised with
  | some h => runHappening ex h s
  | none =>
    if s.tick % 2 = 1 then
      match firstEvent s k (ownEvents s) with
      | some h => runHappening ex h s
      | none => match firstSlot s n with | some x => issue x | none => rest
    else
      match firstSlot s n with
      | some x => issue x
      | none => match firstEvent s k (ownEvents s) with | some h => runHappening ex h s | none => rest

/-- The machine as a turn begins: the agenda and the step count go on, and time passes (06 R179). -/
def beginTurn (s : State) : State := { s with agenda := s.agenda.drop 1, tick := s.tick + 1, clock := s.clock + Config.turnCycles s.tick }

/-- One step under a meaning of the instructions: the turn at the head of the agenda, or the machine's own. -/
def runStep (ex : Meaning) (s : State) : Host.Outcome State Fault Refusal :=
  match s.agenda with
  | t :: _ => runTurn ex t (beginTurn s)
  | [] => runOwn ex (beginTurn s)

/-! ### A program placed for the next step (MODEL) -/

/-- The launch record of a loaded program: one team of one group, with registers to spare and a trap vector. -/
def loadedRecord (entry : Dword) : LaunchRecord :=
  { version := 1, kind := 0, priority := 1, depth := 0, gangPref := 0, gangFall := 0, groups := 1, teams := 1, pool := 0, entry := entry,
    methods := 0, vector := 0x20000#64, arg := 0, countAddr := 0, complete := 0, vDemand := 1024, cDemand := 128, tDemand := 16, evict := 0xFFFFFFFF#32,
    quantum := 0, fmt := [] }

/-- Where a loaded program stands, and the table root of its partition. -/
def loadedEntry : Dword := 0x10000#64
def loadedRoot : Nat := 0x1000

/-- A partition 0 of cluster 0 whose page tables map the first GiB onto itself, with every right: three entries. -/
def loadPartition (s : State) : State :=
  let p : Part := { newPart { partition := 0, clusters := [0], quarters := List.range 16, engines := [0], ports := [] } s.clock with
    root := BitVec.ofNat 64 loadedRoot, running := true }
  let put := fun (s : State) (a x : Nat) => placeBytes s (.mem a) (bytesOfNat 8 x)
  let s1 : State := { addUnits s 0 [0] with parts := p :: s.parts }
  put (put (put s1 loadedRoot 0x2001) 0x2000 0x3001) 0x3000 0x1F

/-- A program loaded from outside: its words at the entry, and one group that is about to issue there, in the very next step. -/
def loadProgram (s : State) (ws : List Word) : State :=
  let s1 := placeBytes (loadPartition s) (.mem loadedEntry.toNat) (ws.flatMap bytesOfWord)
  let (gid, s2) := s1.fresh
  let d : Grid := { id := gid, part := 0, number := 1, record := loadedRecord loadedEntry, launcher := { team := none, sys := false }, queue := 0,
                    teams := 1, next := 0, status := 0, retired := false, phase := none }
  let s3 : State := { s2 with grids := s2.grids ++ [d] }
  let busy := s3.groups.flatMap fun g => g.frags.map Frag.id
  let s4 := placeTeam s3 gid 0 0 1 0
  { s4 with agenda := .issue 0 0 busy :: s4.agenda }

end Sys2Proof.Machine
end

