-- ==== Sys2Proof/Machine/Step.lean ====
section
/-!
DEFINITION. One step of the machine, and the placing of an instruction where the next step fetches it.
-/

namespace Sys2Proof.Machine

/-- One step: the turn at the head of the agenda, or the one that the machine comes to by itself (`Machine/Turn.lean`), with the meanings of
`exec`. -/
def step (s : State) : Host.Outcome State Fault Refusal := runStep exec s

/-- A state with an instruction, numbered as the opcode table numbers its bits, where the next step fetches: at the entry of a program that is
loaded from outside into a partition of its own, whose one group issues next (MODEL, `loadProgram`). -/
def State.withFetchWord (s : State) (nbits w : Nat) : State := loadProgram s (tableWords (w % 2 ^ nbits) 3)

end Sys2Proof.Machine
end

