-- ==== Sys2Proof/Safety.lean ====
section
/-!
DEFINITION. The terms of the claims: a run that does not stop, a fragment that issues and a unit that nothing holds back, and what the end of
a unit leaves as it was.
-/

namespace Sys2Proof.Machine

/-- A step that goes on: neither a fault nor a refusal. -/
def goesOn (s : State) : Prop := ∃ t, step s = .next t

/-- The step from a state answers a state. -/
def stepsTo (s t : State) : Prop := step s = .next t

/-- Memory is in its canonical form (`Memory.wf`). -/
abbrev memoryOk (s : State) : Prop := Memory.wf s.mem = true

/-! ### A fragment that issues (03 R62, R81, R82) -/

/-- Fragment `f` of group `g` issues a unit in state `s`. -/
structure Issues (s : State) (g : Group) (f : Frag) : Prop where
  cur   : s.cur = some (g.id, f.id)
  group : s.group? g.id = some g
  frag  : g.frag? f.id = some f

/-- Whether a register is among the absolute vector registers and the scalars that a unit touches. -/
def named (vs ss : List Nat) : RegRef → Bool
  | .v n => vs.contains n
  | .s n => ss.contains n

/-- Nothing holds back a unit that touches these registers, and no register trap is due: the vector registers lie within the allocation (R62);
no result of the fragment has used up its window unlanded (R81); a result of the fragment that names a touched register has landed and its
window is closed (R81, R82); a result of another fragment that names one has landed, or is the fragment's own too (R82). -/
structure Clear (g : Group) (f : Frag) (vs ss : List Nat) : Prop where
  inside : ∀ n ∈ vs, n < 8 * g.granules
  room   : ∀ o ∈ f.outs, o.landed = false → o.interlock = true ∨ 0 < o.window
  own    : ∀ o ∈ f.outs, ∀ r ∈ o.regs, named vs ss r = true → o.landed = true ∧ (o.interlock = true ∨ o.window = 0)
  others : ∀ x ∈ g.frags, x.id ≠ f.id → ∀ o ∈ x.outs, ∀ r ∈ o.regs, named vs ss r = true → o.landed = true ∨ ∃ y ∈ f.outs, y.id = o.id

/-- The same of a unit that ends a yield-free path: every result of the fragment has landed (R82). -/
structure ClearPath (g : Group) (f : Frag) (vs ss : List Nat) : Prop where
  inside : ∀ n ∈ vs, n < 8 * g.granules
  landed : ∀ o ∈ f.outs, o.landed = true
  others : ∀ x ∈ g.frags, x.id ≠ f.id → ∀ o ∈ x.outs, ∀ r ∈ o.regs, named vs ss r = true → o.landed = true

/-- Nothing earlier of the group in one of these streams is still to be performed, so that a release or a command of them may take effect: no
atomic, its own stream and those that fences have joined to it (13 R327, R335), no commit of a PADDC (18 R415), and, of a release at fabric domain
or system scope, no tier-3 store or atomic that is not acknowledged (13 R331).  In Ephemeris mode the releases of quanta order them (17 R404). -/
def Released (s : State) (g : Group) (streams : BitVec 16) (far : Bool) : Prop :=
  g.logical.isSome = true ∨
    ((∀ r ∈ openAtomics s g.id, streams &&& ((1#16 <<< r.str.toNat) ||| r.joined) = 0) ∧
     (∀ o ∈ g.openCommits, streams.getLsbD o.str.toNat = false) ∧ (far = true →
       (∀ x ∈ g.wire, streams.getLsbD x.1.toNat = false) ∧
       ∀ x ∈ g.frags, ∀ o ∈ x.outs, o.kind = .atom → o.flits ≠ [] → streams &&& ((1#16 <<< o.str.toNat) ||| o.joined) = 0))

/-- The group is an ordinary one, in no handler (11 R292, 16 R386). -/
structure Plain (g : Group) : Prop where
  ordinary : g.role = .ordinary
  free     : g.handler = none

/-- What a unit is issued with, `n` words long. -/
def ctxOf (s : State) (g : Group) (f : Frag) (n : Nat) : Ctx := { s := s, g := g, f := f, next := f.pc + BitVec.ofNat 64 (4 * n) }

/-! ### The end of a unit: its frame -/

/-- What a unit ends: its yield-free path (03 R82), its region (06 R167), its quantum (17 R403). -/
structure Ends where
  path    : Bool := false
  region  : Bool := false
  quantum : Bool := false

/-- Whether a unit has ended its region when it is over: one that parks before it takes effect, a DEQ or an arrival, ends it when it takes effect
(06 R167). -/
def Ends.closes (k : Ends) (f1 : Frag) : Bool := k.region && !f1.unperformed

/-- The region of a fragment at the end of a unit: as the unit's effect left it, or the next one, which begins at `pc` (06 R165); a region
that the unit began counts its retired units from the end of the unit (06 R168, 17 R410). -/
def RegionEnds (k : Ends) (f f1 f2 : Frag) (g1 g2 : Group) (pc : Dword) : Prop :=
  f2.region = { (if k.closes f1 then { entry := pc, base := g1.window, count := g1.regions + 1, join := f1.join } else f1.region) with
    units := f2.region.units } ∧
  (f2.region.count.toNat ≠ f.region.count.toNat → f2.region.units = retiredOf g2.logical) ∧
  (k.closes f1 = false → f2.region.count.toNat = f.region.count.toNat → f2.region.units = f1.region.units)

/-- State `t` is `s1`, the state that the unit's own effect leaves, after the end of the unit that fragment `f` of group `g` issued in `s`,
with the fragment at `pc`.  All that differs from `s1` is the snapshot counts, and of the groups that one; in it logical time (17 R403), the
region counter (06 R165) and the fragment; in the fragment its place, its region, and the windows of its results, which count down, or close
with a yield-free path (03 R81, R82).  In Ephemeris mode the fragment keeps the region that the unit ended, until the unit's effect is
released (06 R167). -/
structure UnitEnds (k : Ends) (s s1 t : State) (g : Group) (f : Frag) (pc : Dword) : Prop where
  rest   : t = { s1 with groups := t.groups, dev := { s1.dev with live := t.dev.live } }
  others : ∀ n, n ≠ g.id → t.group? n = s1.group? n
  group  : ∃ g1 g2 f1 f2, s1.group? g.id = some g1 ∧ t.group? g.id = some g2 ∧ g1.frag? f.id = some f1 ∧ g2.frag? f.id = some f2 ∧
    g2 = { g1 with
      frags := g2.frags
      logical := if f.counted then g1.logical else g1.logical.map (countUnit (quantumOf s1 g1) k.quantum f.pc f.id)
      regions := if k.closes f1 then g1.regions + 1 else g1.regions } ∧
    (∀ n, n ≠ f.id → g2.frag? n = g1.frag? n) ∧
      f2 = { f1 with
        pc := pc, last := f.pc, region := f2.region, held := false, counted := false, ready := s1.tick, promoted := none
        prior := if g1.logical.isSome then some f1.region else none
        outs := if k.path then f1.outs.filter (fun o => !(decide (o.id < s.nextId))) else tickWindows s.nextId f1.outs } ∧
      RegionEnds k f f1 f2 g1 g2 pc

/-- What an instruction does when nothing holds it back: the words of its unit, the registers that it touches, the streams that it orders
before itself (10 R266, 13 R327), and whether it is a release beyond the device (13 R331), what it ends, whether it needs an ordinary group or one in no handler, and the state after its effect,
with the fragment's next unit when it is not the one that follows. -/
structure Deed where
  words    : Nat := 1
  vs       : List Nat := []
  ss       : List Nat := []
  rel      : BitVec 16 := 0
  far      : Bool := false
  ends     : Ends := {}
  ordinary : Bool := false
  free     : Bool := false
  after    : State
  pc       : Option Dword := none

/-- Nothing holds the instruction back (03 R81, R82, 11 R292, 16 R386). -/
def Deed.Ready (e : Deed) (s : State) (g : Group) (f : Frag) : Prop :=
  (if e.ends.path then ClearPath g f e.vs e.ss else Clear g f e.vs e.ss) ∧ (e.rel = 0 ∨ Released s g e.rel e.far) ∧
  (e.ordinary = true → g.role = .ordinary) ∧ (e.free = true → g.handler = none)

/-- It happens: `exec` answers the state of its effect after the end of its unit. -/
def Deed.Happens (e : Deed) (i : Instr) (s : State) (g : Group) (f : Frag) : Prop :=
  ∃ t, exec i s = .next t ∧ UnitEnds e.ends s e.after t g f (e.pc.getD (f.pc + BitVec.ofNat 64 (4 * e.words)))

/-- An instruction that only changes registers takes effect, and its unit ends nothing. -/
def Completes (i : Instr) (s : State) (g : Group) (f : Frag) (n : Nat) (s1 : State) : Prop :=
  Deed.Happens { words := n, after := s1 } i s g f

/-! ### Instructions whose whole effect is on registers: what they touch and what the registers are afterwards -/

/-- Words of a unit, the absolute vector registers and the scalars that it touches, and its group after its effect. -/
structure Row where
  words : Nat := 1
  vs    : List Nat := []
  ss    : List Nat := []
  after : Group

/-- A scalar result. -/
def scalarOut (g : Group) (words : Nat) (vs ss : List Nat) (d : BitVec 6) (x : Word) : Row :=
  { words := words, vs := vs, ss := d.toNat :: ss, after := g.setS d.toNat x }

/-- The scalar instructions of R173 to R175, R177, R178, and PTOS and PPOPC of R180. -/
def scalarRow (g : Group) (f : Frag) : Instr → Option Row
  | .sadd d a b => some (two d a b (g.getS a.toNat + g.getS b.toNat))
  | .ssub d a b => some (two d a b (g.getS a.toNat - g.getS b.toNat))
  | .smul d a b => some (two d a b (g.getS a.toNat * g.getS b.toNat))
  | .smulhu d a b => some (two d a b (BitVec.ofNat 32 ((g.getS a.toNat).toNat * (g.getS b.toNat).toNat / 2 ^ 32)))
  | .smulhs d a b => some (two d a b (BitVec.ofInt 32 ((g.getS a.toNat).toInt * (g.getS b.toNat).toInt / 2 ^ 32)))
  | .sand d a b => some (two d a b (g.getS a.toNat &&& g.getS b.toNat))
  | .sor d a b => some (two d a b (g.getS a.toNat ||| g.getS b.toNat))
  | .sxor d a b => some (two d a b (g.getS a.toNat ^^^ g.getS b.toNat))
  | .sshl d a b => some (two d a b (g.getS a.toNat <<< (g.getS b.toNat).toNat))
  | .sshr d a b => some (two d a b (g.getS a.toNat >>> (g.getS b.toNat).toNat))
  | .ssra d a b => some (two d a b ((g.getS a.toNat).sshiftRight (g.getS b.toNat).toNat))
  | .smin d a b => some (two d a b (if (g.getS a.toNat).toInt ≤ (g.getS b.toNat).toInt then g.getS a.toNat else g.getS b.toNat))
  | .smax d a b => some (two d a b (if (g.getS a.toNat).toInt ≤ (g.getS b.toNat).toInt then g.getS b.toNat else g.getS a.toNat))
  | .sminu d a b => some (two d a b (if g.getS a.toNat ≤ g.getS b.toNat then g.getS a.toNat else g.getS b.toNat))
  | .smaxu d a b => some (two d a b (if g.getS a.toNat ≤ g.getS b.toNat then g.getS b.toNat else g.getS a.toNat))
  | .sandn d a b => some (two d a b (g.getS a.toNat &&& ~~~(g.getS b.toNat)))
  | .saddi d a i => some (scalarOut g (immLen i) [] [a.toNat] d (g.getS a.toNat + i.value))
  | .sandi d a i => some (scalarOut g (immLen i) [] [a.toNat] d (g.getS a.toNat &&& i.value))
  | .sori d a i => some (scalarOut g (immLen i) [] [a.toNat] d (g.getS a.toNat ||| i.value))
  | .sxori d a i => some (scalarOut g (immLen i) [] [a.toNat] d (g.getS a.toNat ^^^ i.value))
  | .sshli d a k => some (one d a (g.getS a.toNat <<< k.toNat))
  | .sshri d a k => some (one d a (g.getS a.toNat >>> k.toNat))
  | .ssrai d a k => some (one d a ((g.getS a.toNat).sshiftRight k.toNat))
  | .sli d i => some (scalarOut g (match i with | .short _ => 1 | .long _ => 2) [] [] d i.value)
  | .sclz d a => some (one d a (BitVec.ofNat 32 (32 - bitLen (g.getS a.toNat).toNat)))
  | .spopc d a => some (one d a (BitVec.ofNat 32 (popCount (g.getS a.toNat))))
  | .sbrev d a => some (one d a (maskOf (lanes.filter fun i => (g.getS a.toNat).getLsbD (31 - i))))
  | .ssxb d a => some (one d a (((g.getS a.toNat).extractLsb' 0 8).signExtend 32))
  | .ssxh d a => some (one d a (((g.getS a.toNat).extractLsb' 0 16).signExtend 32))
  | .smov d a => some (one d a (g.getS a.toNat))
  | .ssel d a b p => some (two d a b (if (g.getP p.toNat).getLsbD (lowestLane f.mask) then g.getS a.toNat else g.getS b.toNat))
  | .smovv d a b => some (scalarOut g 1 [g.abs a] [b.toNat] d (g.getV (g.abs a) ((g.getS b.toNat).extractLsb' 0 5).toNat))
  | .ptos d a => some (scalarOut g 1 [] [] d (g.getP a.toNat))
  | .ppopc d a => some (scalarOut g 1 [] [] d (BitVec.ofNat 32 (popCount (g.getP a.toNat &&& f.mask))))
  | _ => none
where
  two (d a b : BitVec 6) (x : Word) : Row := scalarOut g 1 [] [a.toNat, b.toNat] d x
  one (d a : BitVec 6) (x : Word) : Row := scalarOut g 1 [] [a.toNat] d x
  immLen (i : Imm11) : Nat := match i with | .short _ => 1 | .long _ => 2

/-- The active lanes of a unit with a MODW: those of the fragment where the guard, inverted if the MODW says so, is true (03 R77). -/
def activeOf (g : Group) (f : Frag) (px : Option Modw) : Word :=
  f.mask &&& (if (mw px).gneg then ~~~(g.getP (mw px).guard.toNat) else g.getP (mw px).guard.toNat)

/-- A relation between two words: EQ, NE, and LT, LE, GT, GE signed and unsigned (06 R176). -/
def relation (r : BitVec 4) (x y : Word) : Bool :=
  match r.toNat with
  | 0 => x == y
  | 1 => x != y
  | 2 => x.slt y
  | 3 => x.sle y
  | 4 => y.slt x
  | 5 => y.sle x
  | 6 => x.ult y
  | 7 => x.ule y
  | 8 => y.ult x
  | 9 => y.ule x
  | _ => false

/-- A predicate result: the lanes of a mask take the bits of a word. -/
def predOut (g : Group) (words : Nat) (vs ss : List Nat) (d : BitVec 4) (mask x : Word) : Row :=
  { words := words, vs := vs, ss := ss, after := g.setP d.toNat mask x }

/-- All lanes true or none. -/
def allOr (b : Bool) : Word := if b then 0xFFFFFFFF#32 else 0

/-- The instructions whose result is a predicate: R176, R180, R192. -/
def predRow (g : Group) (f : Frag) : Instr → Option Row
  | .ssetp d a b r =>
    some (predOut g 1 [] [a.toNat, b.toNat] d f.mask (allOr (relation r (g.getS a.toNat) (g.getS b.toNat))))
  | .vsetp px d a b r =>
    some (predOut g (unitWords px) [g.abs a, g.abs b] [] d (activeOf g f px)
      (maskOf (lanes.filter fun i => relation r (g.getV (g.abs a) i) (g.getV (g.abs b) i))))
  | .pand px d a b => some (logic px d (g.getP a.toNat &&& g.getP b.toNat))
  | .por px d a b => some (logic px d (g.getP a.toNat ||| g.getP b.toNat))
  | .pxor px d a b => some (logic px d (g.getP a.toNat ^^^ g.getP b.toNat))
  | .pandn px d a b => some (logic px d (g.getP a.toNat &&& ~~~(g.getP b.toNat)))
  | .porn px d a b => some (logic px d (g.getP a.toNat ||| ~~~(g.getP b.toNat)))
  | .pnot px d a => some (logic px d (~~~(g.getP a.toNat)))
  | .pfroms px d a => some (predOut g (unitWords px) [] [a.toNat] d (activeOf g f px) (g.getS a.toNat))
  | .pany px d a => some (logic px d (allOr (g.getP a.toNat &&& f.mask != 0)))
  | .pall px d a => some (logic px d (allOr (g.getP a.toNat &&& f.mask == f.mask)))
  | .pfirst px d a => some (logic px d (maskOf ((lanesOf (activeOf g f px &&& g.getP a.toNat)).take 1)))
  | _ => none
where
  logic (px : Option Modw) (d : BitVec 4) (x : Word) : Row := predOut g (unitWords px) [] [] d (activeOf g f px) x

/-- A vector result: the active lanes of absolute register `d` take a word of their own. -/
def lanesOut (g : Group) (f : Frag) (px : Option Modw) (words : Nat) (vs ss : List Nat) (d : Nat) (x : Nat → Word) : Row :=
  { words := words, vs := d :: vs, ss := ss, after := g.setLanes d (lanesOf (activeOf g f px)) x }

/-- The tail of the 32-bit integer instructions (03 R77): scale by 2^psc, round, and saturate or wrap. -/
def vint (px : Option Modw) (signed : Bool) (x : Int) : Word := BitVec.ofNat 32 (tailInt signed 32 (mw px) x)

/-- An integer operand after its modifiers (03 R77). -/
def intA (px : Option Modw) (x : Int) : Int := modInt (mw px).absa (mw px).nega x
def intB (px : Option Modw) (x : Int) : Int := modInt (mw px).absb (mw px).negb x

/-- Both 16-bit elements of a lane, each on its own (07 R186). -/
def pairwise (h : BitVec 16 → BitVec 16 → BitVec 16) (x y : Word) : Word :=
  h (x.extractLsb' 16 16) (y.extractLsb' 16 16) ++ h (x.extractLsb' 0 16) (y.extractLsb' 0 16)

/-- A signed 16-bit result: wrapped, or saturated (07 R186). -/
def half (sat : Bool) (x : Int) : BitVec 16 := BitVec.ofInt 16 (if sat then max (-32768) (min 32767 x) else x)

/-- A signed 32-bit result: wrapped, or saturated (07 R188, R189). -/
def whole32 (sat : Bool) (x : Int) : Word := BitVec.ofInt 32 (if sat then max (-2147483648) (min 2147483647 x) else x)

/-- The vector integer, lane and shuffle instructions (07 R185 to R195, R202, R203). -/
def vectorRow (g : Group) (f : Frag) : Instr → Option Row
  | .vadd px d a b => some (two px d a b fun x y => vint px true (intA px x.toInt + intB px y.toInt))
  | .vsub px d a b => some (two px d a b fun x y => vint px true (intA px x.toInt - intB px y.toInt))
  | .vmul px d a b => some (two px d a b fun x y => vint px true (intA px x.toInt * intB px y.toInt))
  | .vmulhu px d a b => some (two px d a b fun x y => BitVec.ofNat 32 (x.toNat * y.toNat / 2 ^ 32))
  | .vmulhs px d a b => some (two px d a b fun x y => BitVec.ofInt 32 (x.toInt * y.toInt / 2 ^ 32))
  | .vand px d a b => some (two px d a b fun x y => x &&& y)
  | .vor px d a b => some (two px d a b fun x y => x ||| y)
  | .vxor px d a b => some (two px d a b fun x y => x ^^^ y)
  | .vshl px d a b => some (two px d a b fun x y => x <<< y.toNat)
  | .vshr px d a b => some (two px d a b fun x y => x >>> y.toNat)
  | .vsra px d a b => some (two px d a b fun x y => x.sshiftRight y.toNat)
  | .vmin px d a b => some (two px d a b fun x y => if x.toInt ≤ y.toInt then x else y)
  | .vmax px d a b => some (two px d a b fun x y => if x.toInt ≤ y.toInt then y else x)
  | .vminu px d a b => some (two px d a b fun x y => if x ≤ y then x else y)
  | .vmaxu px d a b => some (two px d a b fun x y => if x ≤ y then y else x)
  | .vandn px d a b => some (two px d a b fun x y => x &&& ~~~y)
  | .vaddh2 px d a b => some (two px d a b (pairwise fun x y => half (mw px).sat (x.toInt + y.toInt)))
  | .vsubh2 px d a b => some (two px d a b (pairwise fun x y => half (mw px).sat (x.toInt - y.toInt)))
  | .vmulh2 px d a b => some (two px d a b (pairwise fun x y => half (mw px).sat (x.toInt * y.toInt)))
  | .vminh2 px d a b => some (two px d a b (pairwise fun x y => if x.toInt ≤ y.toInt then x else y))
  | .vmaxh2 px d a b => some (two px d a b (pairwise fun x y => if x.toInt ≤ y.toInt then y else x))
  | .vminuh2 px d a b => some (two px d a b (pairwise fun x y => if x ≤ y then x else y))
  | .vmaxuh2 px d a b => some (two px d a b (pairwise fun x y => if x ≤ y then y else x))
  | .vmad px d a b t =>
    let val := fun (x : Word) => if t = 0 then x.toInt else (x.toNat : Int)
    some (three px d a b fun x y z => vint px (t == 0) (modInt false (mw px).nega (val x) * modInt false (mw px).negb (val y) + val z))
  | .vaddi px d a i => some (imm px d a i fun x => if (mw px).sat then whole32 true (x.toInt + i.value.toInt) else x + i.value)
  | .vandi px d a i => some (imm px d a i fun x => x &&& i.value)
  | .vshli px d a k => some (one px d a fun x => x <<< k.toNat)
  | .vshri px d a k => some (one px d a fun x => x >>> k.toNat)
  | .vsrai px d a k => some (one px d a fun x => x.sshiftRight k.toNat)
  | .vclz px d a => some (one px d a fun x => BitVec.ofNat 32 (32 - bitLen x.toNat))
  | .vpopc px d a => some (one px d a fun x => BitVec.ofNat 32 (popCount x))
  | .vbrev px d a => some (one px d a fun x => maskOf (lanes.filter fun i => x.getLsbD (31 - i)))
  | .vmov px d a => some (one px d a fun x => x)
  | .vnot px d a => some (one px d a fun x => ~~~x)
  | .viabs px d a => some (one px d a fun x => whole32 (mw px).sat (x.toInt.natAbs : Int))
  | .vineg px d a => some (one px d a fun x => whole32 (mw px).sat (-x.toInt))
  | .vbfeu px d a b => some (two px d a b fun x k => (x.extractLsb' (pos k) (cut k)).setWidth 32)
  | .vbfes px d a b => some (two px d a b fun x k => (x.extractLsb' (pos k) (cut k)).signExtend 32)
  | .vbfi px d a b => some (three px d a b fun x k z =>
      let m := (BitVec.ofNat 32 (2 ^ width k - 1)) <<< pos k
      (z &&& ~~~m) ||| ((x <<< pos k) &&& m))
  | .vpermb px d a b =>
    some (lanesOut g f px (unitWords px) [g.abs a, g.abs a + 1, g.abs b] [] (g.abs d) fun i =>
      let src := g.getV64 (g.abs a) i
      let sel := g.getV (g.abs b) i
      let byte := fun (j : Nat) =>
        let k := sel.extractLsb' (8 * j) 8
        if k.getLsbD 7 then 0#8 else src.extractLsb' (8 * (k.extractLsb' 0 3).toNat) 8
      byte 3 ++ byte 2 ++ byte 1 ++ byte 0)
  | .vpermbN4 px d a b => some (two px d a b fun src sel =>
      let nib := fun (j : Nat) =>
        let k := sel.extractLsb' (4 * j) 4
        if k.getLsbD 3 then 0#4 else src.extractLsb' (4 * (k.extractLsb' 0 3).toNat) 4
      nib 7 ++ nib 6 ++ nib 5 ++ nib 4 ++ nib 3 ++ nib 2 ++ nib 1 ++ nib 0)
  | .vsel px d a b p =>
    some (lanesOut g f px (unitWords px) [g.abs a, g.abs b] [] (g.abs d) fun i =>
      if (g.getP p.toNat).getLsbD i then g.getV (g.abs a) i else g.getV (g.abs b) i)
  | .vmovs px d a => some (lanesOut g f px (unitWords px) [] [a.toNat] (g.abs d) fun _ => g.getS a.toNat)
  | .vins px d a b =>
    let i := ((g.getS b.toNat).extractLsb' 0 5).toNat
    some { words := unitWords px, vs := [g.abs d], ss := [a.toNat, b.toNat],
           after := if (activeOf g f px).getLsbD i then g.setV (g.abs d) i (g.getS a.toNat) else g }
  | .vlane px d => some (lanesOut g f px (unitWords px) [] [] (g.abs d) fun i => BitVec.ofNat 32 i)
  | .vmovxr px d a =>
    some (lanesOut g f px (unitWords px) [g.window + (g.getS a.toNat).toNat] [a.toNat] (g.abs d) fun i =>
      g.getV (g.window + (g.getS a.toNat).toNat) i)
  | .vmovxw px a b =>
    some (lanesOut g f px (unitWords px) [g.abs b] [a.toNat] (g.window + (g.getS a.toNat).toNat) fun i => g.getV (g.abs b) i)
  | .vconf px d a p =>
    let act := lanesOf (activeOf g f px)
    let m := fun (i : Nat) => maskOf (act.filter fun j => decide (j < i) && g.getV (g.abs a) j == g.getV (g.abs a) i)
    some { words := unitWords px, vs := [g.abs d, g.abs a], ss := [],
           after := (g.setLanes (g.abs d) act m).setP p.toNat (activeOf g f px) (maskOf (act.filter fun i => m i == 0)) }
  | .vshfl px d a b =>
    some (lanesOut g f px (unitWords px) [g.abs a, g.abs b] [] (g.abs d) fun i =>
      g.getV (g.abs a) ((g.getV (g.abs b) i).extractLsb' 0 5).toNat)
  | .vshflx px d a k => some (shuffled px d a fun i => i ^^^ k.toNat)
  | .vshflu px d a k => some (shuffled px d a fun i => if k.toNat ≤ i then i - k.toNat else i)
  | .vshfld px d a k => some (shuffled px d a fun i => if i + k.toNat < 32 then i + k.toNat else i)
  | _ => none
where
  two (px : Option Modw) (d a b : BitVec 7) (h : Word → Word → Word) : Row :=
    lanesOut g f px (unitWords px) [g.abs a, g.abs b] [] (g.abs d) fun i => h (g.getV (g.abs a) i) (g.getV (g.abs b) i)
  three (px : Option Modw) (d a b : BitVec 7) (h : Word → Word → Word → Word) : Row :=
    lanesOut g f px (unitWords px) [g.abs a, g.abs b] [] (g.abs d) fun i =>
      h (g.getV (g.abs a) i) (g.getV (g.abs b) i) (g.getV (g.abs d) i)
  one (px : Option Modw) (d a : BitVec 7) (h : Word → Word) : Row :=
    lanesOut g f px (unitWords px) [g.abs a] [] (g.abs d) fun i => h (g.getV (g.abs a) i)
  imm (px : Option Modw) (d a : BitVec 7) (i : Imm11) (h : Word → Word) : Row :=
    lanesOut g f px (unitWords px + (match i with | .short _ => 0 | .long _ => 1)) [g.abs a] [] (g.abs d) fun i => h (g.getV (g.abs a) i)
  shuffled (px : Option Modw) (d a : BitVec 7) (h : Nat → Nat) : Row :=
    lanesOut g f px (unitWords px) [g.abs a] [] (g.abs d) fun i => g.getV (g.abs a) (h i)
  pos (k : Word) : Nat := (k.extractLsb' 0 5).toNat
  width (k : Word) : Nat := min (k.extractLsb' 8 6).toNat 32
  /-- The width of the field that a control word names, cut at bit 31 (07 R190). -/
  cut (k : Word) : Nat := min (width k) (32 - pos k)

/-- The format of an arithmetic element: f32, or f64 in a register pair (07 R196). -/
def fmt64 (w : BitVec 1) : FloatFmt := if w = 1 then fmtF64 else fmtF32

/-- The registers of an element. -/
def regs64 (w : BitVec 1) (r : Nat) : List Nat := if w = 1 then [r, r + 1] else [r]

/-- The element of a register, or of a pair, at a lane. -/
def elem64 (g : Group) (w : BitVec 1) (r i : Nat) : Nat := if w = 1 then (g.getV64 r i).toNat else (g.getV r i).toNat

/-- Elements in the listed lanes of a register or a pair. -/
def with64 (g : Group) (w : BitVec 1) (r : Nat) (ls : List Nat) (x : Nat → Nat) : Group :=
  if w = 1 then g.setLanes64 r ls fun i => BitVec.ofNat 64 (x i) else g.setLanes r ls fun i => BitVec.ofNat 32 (x i)

/-- Both 16-bit codes of a lane, each on its own, with the destination's as third operand (07 R200). -/
def packed16 (h : Nat → Nat → Nat → Nat) (x y z : Word) : Word :=
  let at16 := fun (k : Nat) => BitVec.ofNat 16 (h (x.extractLsb' k 16).toNat (y.extractLsb' k 16).toNat (z.extractLsb' k 16).toNat)
  at16 16 ++ at16 0

/-- The sum of R196 in a format: an exact operation, then the tail of R77. -/
def sumOf (F : FloatFmt) (px : Option Modw) (x y : Num) : Nat := tailFloat F (mw px) (Num.add ((mw px).rnd == 2) x y)

/-- The product of R196. -/
def productOf (F : FloatFmt) (px : Option Modw) (x y : Nat) : Num := Num.mul (F.decode (modA F (mw px) x)) (F.decode (modB F (mw px) y))

/-- The vector floating-point instructions with a result at once (07 R196 to R200). -/
def floatRow (g : Group) (f : Frag) : Instr → Option Row
  | .vfadd px d a b w => some (two px w d a b fun F x y _ => sumOf F px (F.decode (modA F (mw px) x)) (F.decode (modB F (mw px) y)))
  | .vfsub px d a b w => some (two px w d a b fun F x y _ => sumOf F px (F.decode (modA F (mw px) x)) (F.decode (modB F (mw px) y)).neg)
  | .vfmul px d a b w => some (two px w d a b fun F x y _ => tailFloat F (mw px) (productOf F px x y))
  | .vfmin px d a b w => some (two px w d a b fun F x y _ => F.minCode (modA F (mw px) x) (modB F (mw px) y))
  | .vfmax px d a b w => some (two px w d a b fun F x y _ => F.maxCode (modA F (mw px) x) (modB F (mw px) y))
  | .vfminn px d a b w => some (two px w d a b fun F x y _ => F.minnCode false (modA F (mw px) x) (modB F (mw px) y))
  | .vfmaxn px d a b w => some (two px w d a b fun F x y _ => F.minnCode true (modA F (mw px) x) (modB F (mw px) y))
  | .vfsgn px d a b w =>
    some (two px w d a b fun F x y _ => x % 2 ^ (F.bits - 1) + y / 2 ^ (F.bits - 1) % 2 * 2 ^ (F.bits - 1))
  | .vfma px d a b w => some (two px w d a b fun F x y z => sumOf F px (productOf F px x y) (F.decode z))
  | .vfsetp px d a b w r =>
    some (predOut g (unitWords px) (regs64 w (g.abs a) ++ regs64 w (g.abs b)) [] d (activeOf g f px)
      (maskOf (lanes.filter fun i => floatRel (fmt64 w) r (modA (fmt64 w) (mw px) (elem64 g w (g.abs a) i))
        (modB (fmt64 w) (mw px) (elem64 g w (g.abs b) i)))))
  | .vfclass px d a t =>
    let F : FloatFmt := match t.toNat with | 0 => fmtF32 | 1 => fmtF64 | 2 => fmtF16 | _ => fmtBf16
    let w : BitVec 1 := if t = 1 then 1 else 0
    some (lanesOut g f px (unitWords px) (regs64 w (g.abs a)) [] (g.abs d) fun i => classWord F (elem64 g w (g.abs a) i))
  | .vhadd px d a b w => some (half px w d a b fun F x y _ => sumOf F px (F.decode (modA F (mw px) x)) (F.decode (modB F (mw px) y)))
  | .vhsub px d a b w => some (half px w d a b fun F x y _ => sumOf F px (F.decode (modA F (mw px) x)) (F.decode (modB F (mw px) y)).neg)
  | .vhmul px d a b w => some (half px w d a b fun F x y _ => tailFloat F (mw px) (productOf F px x y))
  | .vhfma px d a b w => some (half px w d a b fun F x y z => sumOf F px (productOf F px x y) (F.decode z))
  | .vhmin px d a b w => some (half px w d a b fun F x y _ => F.minCode (modA F (mw px) x) (modB F (mw px) y))
  | .vhmax px d a b w => some (half px w d a b fun F x y _ => F.maxCode (modA F (mw px) x) (modB F (mw px) y))
  | _ => none
where
  two (px : Option Modw) (w : BitVec 1) (d a b : BitVec 7) (h : FloatFmt → Nat → Nat → Nat → Nat) : Row :=
    { words := unitWords px, vs := regs64 w (g.abs d) ++ regs64 w (g.abs a) ++ regs64 w (g.abs b),
      after := with64 g w (g.abs d) (lanesOf (activeOf g f px)) fun i =>
        h (fmt64 w) (elem64 g w (g.abs a) i) (elem64 g w (g.abs b) i) (elem64 g w (g.abs d) i) }
  half (px : Option Modw) (w : BitVec 1) (d a b : BitVec 7) (h : FloatFmt → Nat → Nat → Nat → Nat) : Row :=
    lanesOut g f px (unitWords px) [g.abs a, g.abs b] [] (g.abs d) fun i =>
      packed16 (h (if w = 1 then fmtBf16 else fmtF16)) (g.getV (g.abs a) i) (g.getV (g.abs b) i) (g.getV (g.abs d) i)

/-- The narrow-format instructions with a result at once (09 R238 to R247); of those that read a format slot, where the slot names a format
that the instruction accepts (09 R236). -/
def narrowRow (s : State) (g : Group) (f : Frag) : Instr → Option Row
  | .vcvt px d a k =>
    let wd : BitVec 1 := if (cvtWide k).1 = 2 then 1 else 0
    let wa : BitVec 1 := if (cvtWide k).2 = 2 then 1 else 0
    some { words := unitWords px, vs := regs64 wd (g.abs d) ++ regs64 wa (g.abs a),
           after := with64 g wd (g.abs d) (lanesOf (activeOf g f px)) fun i => cvt k.toNat (mw px) (elem64 g wa (g.abs a) i) }
  | .vunpk px d a b n =>
    let w := slotWord s g n.toNat
    match slotElem w with
    | none => none
    | some F =>
      if packs F then
        some { words := unitWords px, vs := many (g.abs d) (32 / F.bits) ++ g.abs a :: scaleReg w b,
               after := (List.range (32 / F.bits)).foldl (fun g1 k => g1.setLanes (g.abs d + k) (lanesOf (activeOf g f px)) fun i =>
                 unpackOne w (mw px) F (g.getV (g.abs b) i) (packedElem F (g.getV (g.abs a) i) k)) g }
      else none
  | .vpack px d a b n =>
    let w := slotWord s g n.toNat
    match slotElem w with
    | none => none
    | some F =>
      if packs F ∧ slotScale w ≤ 1 then
        some (lanesOut g f px (unitWords px) (many (g.abs a) (32 / F.bits) ++ scaleReg w b) [] (g.abs d) fun i =>
          BitVec.ofNat 32 ((List.range (32 / F.bits)).foldl (fun x k =>
            x + packOne w (mw px) F (g.getV (g.abs b) i) (g.getV (g.abs a + k) i) * 2 ^ (F.bits * k)) 0))
      else none
  | .vdot px d a b t =>
    some (lanesOut g f px (unitWords px) [g.abs a, g.abs b] [] (g.abs d) fun i =>
      dotLane t.toNat (mw px) (g.getV (g.abs a) i) (g.getV (g.abs b) i) (g.getV (g.abs d) i))
  | .vqnt px d a b n =>
    let w := slotWord s g n.toNat
    match slotElem w with
    | none => none
    | some F =>
      if quantises F ∧ slotScale w ≤ 1 then
        some (lanesOut g f px (unitWords px) (g.abs b :: many (g.abs a) (if slotScale w = 1 then 2 else 1)) [] (g.abs d) fun i =>
          quantOne w (mw px).sat F (g.getV (g.abs a) i) (g.getV (g.abs a + 1) i) (g.getV (g.abs b) i))
      else none
  | .vqntScale px d a n =>
    let w := slotWord s g n.toNat
    match slotElem w with
    | none => none
    | some F =>
      if scaleQuantises F ∧ slotScale w = 1 then
        some (lanesOut g f px (unitWords px) [g.abs a] [] (g.abs d) fun i => BitVec.ofNat 32 (scaleCode F (numOfF32 (g.getV (g.abs a) i))))
      else none
  | _ => none
where
  many (r n : Nat) : List Nat := (List.range n).map fun k => r + k
  scaleReg (w : Word) (b : BitVec 7) : List Nat := if slotScale w = 0 then [] else [g.abs b]

/-! ### Instructions with an effect beyond registers: their deeds -/

/-- A deed on the group alone. -/
def onGroup (s : State) (g : Group) (words : Nat) (vs ss : List Nat) : Deed := { words := words, vs := vs, ss := ss, after := s.setGroup g }

/-- The fragment that issues, changed. -/
def withFrag (g : Group) (f : Frag) (h : Frag → Frag) : Group := g.modFrag f.id h

/-- A 64-bit word as two 32-bit words, the lower first. -/
def lowWord (x : Dword) : Word := x.extractLsb' 0 32
def highWord (x : Dword) : Word := x.extractLsb' 32 32

/-- The address that an 18-bit word offset from the unit names (03 R73). -/
def offsetFrom (pc : Dword) (o : BitVec 18) : Dword := pc + BitVec.ofInt 64 (4 * o.toInt)

/-- Instructions on system registers, the window base, the trap record, the pending join and batches (06 R164, R171, R172, R179; 03 R63;
14 R353; 16 R383; 18 R419; 20 R450). -/
def systemDeed (s : State) (g : Group) (f : Frag) : Instr → Option Deed
  | .nop => some { after := s }
  | .snap =>
    let allowed := (s.isSysGroup g) || (match s.part? g.part with | none => false | some p => p.snapAllow)
    if allowed then some { after := snapTrigger s g.part } else none
  | .srsys d n =>
    let x := sysRead (ctxOf s g f 1) n.toNat
    some (if sysWide n.toNat then onGroup s (g.setPair d.toNat (BitVec.ofNat 64 x)) 1 [] [d.toNat, d.toNat + 1]
      else onGroup s (g.setS d.toNat (BitVec.ofNat 32 x)) 1 [] [d.toNat])
  | .swsys a n =>
    if n = 0x016 then some (onGroup s { g with rngkey := g.getPair a.toNat } 1 [] [a.toNat, a.toNat + 1])
    else if n = 0x018 then some (onGroup s { g with smscale := g.getS a.toNat } 1 [] [a.toNat])
    else none
  | .wbase i => if i.toNat < g.granules then some (onGroup s { g with window := 8 * i.toNat } 1 [] []) else none
  | .trapinfo d b =>
    let t := g.trap
    let w : Word × Word × Word × Word := match b.toNat with
      | 0 => (t.cause, t.mask, lowWord t.addr, highWord t.addr)
      | 1 => (lowWord t.pc, highWord t.pc, lowWord t.resume, highWord t.resume)
      | _ => (lowWord t.regionEntry, highWord t.regionEntry, t.regionCount, t.flags)
    let n := 4 * d.toNat
    some (onGroup s ((((g.setS n w.1).setS (n + 1) w.2.1).setS (n + 2) w.2.2.1).setS (n + 3) w.2.2.2) 1 [] [n, n + 1, n + 2, n + 3])
  | .rdver d b => some (onGroup s (g.setS d.toNat (match b.toNat with | 0 => 0x100#32 | 11 => 0x100#32 | 13 => 0x71440001#32 | _ => 1#32)) 1 [] [d.toNat])
  | .jset o => some (onGroup s (withFrag g f fun x => { x with join := some (offsetFrom f.pc o) }) 1 [] [])
  | .ychk =>
    some { ends := { path := true }
           after := if stopPending s g ∧ g.handler = none then s.setGroup (withFrag g f fun x => { x with stopped := true }) else s }
  | .mbatch d =>
    some { onGroup s { g.setS d.toNat g.nextBatch with
             nextBatch := if g.nextBatch = 0xFFFFFFFF#32 then 1 else g.nextBatch + 1, batches := g.batches ++ [(g.nextBatch, g.cmds)] } 1 [] [d.toNat] with
           ends := { region := true }, ordinary := true }
  | .lsupd d a =>
    match lsNext (g.getS (2 * d.toNat)) (g.getS a.toNat) with
    | none => none
    | some (w, k) =>
      some { onGroup s ((g.setS (2 * d.toNat) w).setS (2 * d.toNat + 1) (BitVec.ofNat 32 ((k + 127) * 2 ^ 23))) 1 [] [a.toNat, 2 * d.toNat, 2 * d.toNat + 1] with
             ends := { region := true }, ordinary := true }
  | _ => none

/-! #### Branches and regions (06 R161 to R166) -/

/-- The lanes of a fragment that a branch condition takes. -/
def takes (g : Group) (f : Frag) (p : BitVec 4) (n : BitVec 1) : Word := f.mask &&& (if n = 1 then ~~~(g.getP p.toNat) else g.getP p.toNat)

/-- A branch that the lanes do not divide: whether it is taken, by its mode (06 R161); none where the lanes divide it or an asserted
uniform branch has lanes that disagree. -/
def branchGoes (g : Group) (f : Frag) (p : BitVec 4) (n : BitVec 1) (m : BitVec 2) : Option Bool :=
  let tk := takes g f p n
  match m.toNat with
  | 0 => if p = 0 then some (n == 0) else if tk = f.mask then some true else if tk = 0 then some false else none
  | 1 => if tk = f.mask then some true else if tk = 0 then some false else none
  | 2 => some (tk != 0)
  | _ => some (tk == f.mask)

/-- BRA and CALL, BRX, RET, DBRA. -/
def branchDeed (s : State) (g : Group) (f : Frag) : Instr → Option Deed
  | .bra p n m o => (branchGoes g f p n m).map fun go => jump go [] (joined p m) (offsetFrom f.pc o)
  | .call p n m o =>
    (branchGoes g f p n m).map fun go =>
      jump go [63] (if go then (joined p m).setS 63 (lowWord (f.pc + 4)) else joined p m) (offsetFrom f.pc o)
  | .brx a =>
    let x := g.getPair (2 * a.toNat)
    if x.toNat % 4 = 0 then some (jump true [2 * a.toNat, 2 * a.toNat + 1] g x) else none
  | .ret a =>
    let x := highWord f.pc ++ g.getS a.toNat
    if x.toNat % 4 = 0 then some (jump true [a.toNat] g x) else none
  | .dbra d i =>
    let x := g.getS d.toNat - 1
    some (jump (x != 0) [d.toNat] (g.setS d.toNat x) (offsetFrom f.pc i))
  | _ => none
where
  /-- A conditional branch in the default mode clears the pending join, if any. -/
  joined (p : BitVec 4) (m : BitVec 2) : Group := if m = 0 ∧ p ≠ 0 then withFrag g f fun x => { x with join := none } else g
  jump (go : Bool) (ss : List Nat) (g1 : Group) (target : Dword) : Deed :=
    { onGroup s g1 1 [] ss with pc := if go then some target else none }

/-- RGN: the vector registers that a granule mask names under the window (06 R166). -/
def granuleRegs (g : Group) (m : BitVec 16) : List Nat :=
  ((List.range 16).filter fun j => m.getLsbD j).flatMap fun j => (List.range 8).map fun k => g.window + 8 * j + k

/-- RGN of both kinds: the region that begins, and the stage block (06 R165, R166).  Kind 0b01 needs a group of one fragment, one that a handler
runs for counting once. -/
def regionDeed (s : State) (g : Group) (f : Frag) : Instr → Option Deed
  | .rgn m => some (begin_ m false)
  | .rgnSp m => if g.fragCount ≤ 1 then some (begin_ m true) else none
  | _ => none
where
  begin_ (m : BitVec 16) (sp : Bool) : Deed :=
    let r : Region :=
      { entry := f.pc + 4, sp := sp, mask := m, base := g.window, count := g.regions + 1, join := f.join, units := retiredOf g.logical }
    onGroup s { g with regions := g.regions + 1, stage := stageRegs (ctxOf s g f 1) m sp g.stage, frags := putBy Frag.id g.frags { f with region := r } } 1
      (granuleRegs g m) (if sp then List.range 64 else [])

/-! #### Long-latency results (03 R81, 07 R201, R204 to R207, 09 R248) -/

/-- The state with one more outstanding result of the fragment. -/
def withOut (s : State) (g : Group) (f : Frag) (o : Out) : State :=
  s.modGroup g.id fun x => x.modFrag f.id fun y => { y with outs := y.outs ++ [o] }

/-- The result of a long-latency unit of vector registers: its number, its window, and the words it will write. -/
def resultOf (s : State) (f : Frag) (k : OutKind) (regs : List Nat) (la : BitVec 4) (ws : List RegWrite) : Out :=
  { id := s.nextId, kind := k, regs := regs.map RegRef.v, window := la.toNat, interlock := false, landed := false, str := 0, writes := ws,
    awaits := [], replies := [], addrs := [], trap := none, flits := [], pc := f.pc, quantum := 0 }

/-- Words by lane: of a register, and of a pair. -/
def words32 (g : Group) (f : Frag) (px : Option Modw) (r : Nat) (x : Nat → Nat) : List RegWrite :=
  (lanesOf (activeOf g f px)).map fun i => { reg := .v r, lane := i, val := BitVec.ofNat 32 (x i) }
def words64 (g : Group) (f : Frag) (px : Option Modw) (r : Nat) (x : Nat → Nat) : List RegWrite :=
  (lanesOf (activeOf g f px)).flatMap fun i =>
    [{ reg := .v r, lane := i, val := BitVec.ofNat 32 (x i) }, { reg := .v (r + 1), lane := i, val := BitVec.ofNat 32 (x i / 2 ^ 32) }]

/-- The leaves of a reduction: the elements of the active lanes, NaNs canonical, and absent elsewhere (07 R205). -/
def leavesOf (g : Group) (f : Frag) (px : Option Modw) (a : BitVec 7) (t : BitVec 3) : List (Option Nat) :=
  lanes.map fun i =>
    if (activeOf g f px).getLsbD i then
      some (redCanon t (if redWide t then (g.getV64 (g.abs a) i).toNat else (g.getV (g.abs a) i).toNat))
    else none

/-- The special functions, VRED, VSCAN, VSCANX and RNGC. -/
def resultDeed (s : State) (g : Group) (f : Frag) : Instr → Option Deed
  | .vfrcp px d a l => some (special 0 px d a l)
  | .vfrsq px d a l => some (special 1 px d a l)
  | .vfsqrt px d a l => some (special 2 px d a l)
  | .vfexp2 px d a l => some (special 3 px d a l)
  | .vflog2 px d a l => some (special 4 px d a l)
  | .vfsin px d a l => some (special 5 px d a l)
  | .vfcos px d a l => some (special 6 px d a l)
  | .vftanh px d a l => some (special 7 px d a l)
  | .vred px d a o t l =>
    let xs := leavesOf g f px a t
    some (reduce px d a t l fun _ => if redExact (mw px) o t then redSum t xs else (redTree o t xs).getD 0)
  | .vscan px d a o t l => some (reduce px d a t l (scanAt (mw px) o t (leavesOf g f px a t)))
  | .vscanx px d a o t l =>
    some (reduce px d a t l fun i =>
      match ((lanesOf (activeOf g f px)).filter fun j => decide (j < i)).getLast? with
      | none => redIdentity o t
      | some j => scanAt (mw px) o t (leavesOf g f px a t) j)
  | .rngc px d a b l =>
    some (long px [g.abs a, g.abs a + 1] [2 * b.toNat, 2 * b.toNat + 1] (wide true (g.abs d)) l (words64 g f px (g.abs d) fun i =>
      (rng g.rngkey (g.getS (2 * b.toNat)) (g.getS (2 * b.toNat + 1)) (g.getV (g.abs a) i) (g.getV (g.abs a + 1) i)).toNat))
  | _ => none
where
  wide (w : Bool) (r : Nat) : List Nat := if w then [r, r + 1] else [r]
  long (px : Option Modw) (vs ss regs : List Nat) (l : BitVec 4) (ws : List RegWrite) : Deed :=
    { words := unitWords px, vs := regs ++ vs, ss := ss, after := withOut { s with nextId := s.nextId + 1 } g f (resultOf s f .compute regs l ws) }
  special (fn : Nat) (px : Option Modw) (d a : BitVec 7) (l : BitVec 4) : Deed :=
    long px [g.abs a] [] [g.abs d] l (words32 g f px (g.abs d) fun i =>
      (specialF32 fn (BitVec.ofNat 32 (modA fmtF32 (mw px) (g.getV (g.abs a) i).toNat))).toNat)
  reduce (px : Option Modw) (d a : BitVec 7) (t : BitVec 3) (l : BitVec 4) (x : Nat → Nat) : Deed :=
    long px (wide (redWide t) (g.abs a)) [] (wide (redWide t) (g.abs d)) l
      (if redWide t then words64 g f px (g.abs d) x else words32 g f px (g.abs d) x)

/-! #### Loads and stores (08 R220 to R232) -/

/-- The address of a lane of LD and ST (08 R225), and what it touches. -/
def memAddr (g : Group) (am : BitVec 1) (a : BitVec 6) (b : BitVec 7) (i : Nat) : Dword :=
  if am = 0 then g.getPair a.toNat + (g.getV (g.abs b) i).signExtend 64 else g.getV64 (g.abs b) i
def memVs (g : Group) (am : BitVec 1) (b : BitVec 7) : List Nat := if am = 0 then [g.abs b] else [g.abs b, g.abs b + 1]
def memSs (am : BitVec 1) (a : BitVec 6) : List Nat := if am = 0 then [a.toNat, a.toNat + 1] else []

/-- The address of a lane of LDS and STS: an offset into the slice window (08 R230). -/
def windowAddr (g : Group) (a : BitVec 6) (b : BitVec 7) (i : Nat) : Dword :=
  0xFFFE000000000000#64 + (g.getS a.toNat + g.getV (g.abs b) i).setWidth 64

/-- Consecutive registers. -/
def regsFrom (r n : Nat) : List Nat := (List.range n).map fun k => r + k

/-- The words of a value, lowest first. -/
def splitWords (n x : Nat) : List Word := (List.range n).map fun k => BitVec.ofNat 32 (x / 2 ^ (32 * k))

/-- A load of the active lanes that pass their checks and meet no error: an outstanding result that will write, in each lane, the words of
the bytes at the lane's address, as the group sees memory (08 R226); the walker's marks (08 R217).  With no active lane, nothing. -/
def loadDeed (s : State) (g : Group) (f : Frag) (px : Option Modw) (vs ss : List Nat) (d n size : Nat) (la : BitVec 4) (words : Nat → List Word)
    (addr : Nat → Dword) : Option Deed :=
  let ls := lanesOf (activeOf g f px)
  let base : Deed := { words := unitWords px, vs := regsFrom d n ++ vs, ss := ss, after := s }
  if ls = [] then some base
  else match checkLanes (ctxOf s g f (unitWords px)) .load (ls.map fun i => (i, addr i, size)) with
    | .bad _ => none
    | .ok s1 l =>
      if l.any fun x => (viewOf s g).broken s1 g.part x.2.2 size then none
      else
        let sent := sendFlits { s1 with nextId := s1.nextId + 1 } g.part (l.map fun x => (x.1, x.2.2))
        let ws := l.flatMap fun x => ((regsFrom d n).zip (words (natOfBytes (readLocs s1 (viewOf s g) x.2.2 size)))).map fun rw =>
          ({ reg := .v rw.1, lane := x.1, val := rw.2 } : RegWrite)
        some { base with after := withOut sent.1 g f { resultOf s1 f .load (regsFrom d n) la ws with
          str := (mw px).str, addrs := l.map fun x => (x.1, x.2.1), flits := sent.2 } }

/-- LD and LDS (08 R226, R230): registers, bytes, and the words of the value. -/
def loadsDeed (s : State) (g : Group) (f : Frag) : Instr → Option Deed
  | .ld8u px d am a b l => ld px d am a b l 1 1 fun x => [BitVec.ofNat 32 x]
  | .ld8s px d am a b l => ld px d am a b l 1 1 fun x => [(BitVec.ofNat 8 x).signExtend 32]
  | .ld16u px d am a b l => ld px d am a b l 1 2 fun x => [BitVec.ofNat 32 x]
  | .ld16s px d am a b l => ld px d am a b l 1 2 fun x => [(BitVec.ofNat 16 x).signExtend 32]
  | .ld32 px d am a b l => ld px d am a b l 1 4 (splitWords 1)
  | .ld64 px d am a b l => ld px d am a b l 2 8 (splitWords 2)
  | .ld128 px d am a b l => ld px d am a b l 4 16 (splitWords 4)
  | .lds32 px d a b l => lds px d a b l 1
  | .lds64 px d a b l => lds px d a b l 2
  | .lds128 px d a b l => lds px d a b l 4
  | _ => none
where
  ld (px : Option Modw) (d : BitVec 7) (am : BitVec 1) (a : BitVec 6) (b : BitVec 7) (l : BitVec 4) (n size : Nat) (words : Nat → List Word) :
      Option Deed :=
    loadDeed s g f px (memVs g am b) (memSs am a) (g.abs d) n size l words (memAddr g am a b)
  lds (px : Option Modw) (d : BitVec 7) (a : BitVec 6) (b : BitVec 7) (l : BitVec 4) (n : Nat) : Option Deed :=
    (loadDeed s g f px [g.abs b] [a.toNat] (g.abs d) n (4 * n) l (splitWords n) (windowAddr g a b)).map fun e => { e with ordinary := true }

/-- What a store does with pieces that passed their checks: it is performed, or held to the quantum's end, or put into a batch's buffer
(08 R227, 11 R293, 17 R404); the requests of its tier-3 pieces leave, and are kept until they are acknowledged (13 R331). -/
def storeAfter (s : State) (g : Group) (f : Frag) (px : Option Modw) (ps : List Piece) : Option State :=
  if overflowsCommit g ps then none
  else match g.role with
    | .service _ _ => if overflowsBuffer s g ps then none else some (emit s g.id (.store ps (mw px).str f.pc f.mask))
    | .ordinary => some (emit (sendStores (ctxOf s g f 1) s (mw px).str ps) g.id (.store ps (mw px).str f.pc f.mask))

/-- The pieces that a store of lanes stores: at each lane's address, its data, lowest byte first, in ascending lane order (08 R227). -/
def storePiecesOf (l : List (Nat × Dword × Loc)) (size : Nat) (data : Nat → Nat) : List Piece :=
  l.map fun x => { loc := x.2.2, addr := x.2.1, bytes := bytesOfNat size (data x.1), mask := [] }

/-- A store of the active lanes that pass their checks.  With no active lane, nothing. -/
def storeDeed (s : State) (g : Group) (f : Frag) (px : Option Modw) (vs ss : List Nat) (size : Nat) (data : Nat → Nat) (addr : Nat → Dword) :
    Option Deed :=
  let ls := lanesOf (activeOf g f px)
  let base : Deed := { words := unitWords px, vs := vs, ss := ss, after := s }
  if ls = [] then some base
  else match checkLanes (ctxOf s g f (unitWords px)) .store (ls.map fun i => (i, addr i, size)) with
    | .bad _ => none
    | .ok s1 l => (storeAfter s1 g f px (storePiecesOf l size data)).map fun t => { base with after := t }

/-- The data of a lane: `n` registers, the low word first. -/
def laneData (g : Group) (d n i : Nat) : Nat := (List.range n).foldl (fun x k => x + (g.getV (d + k) i).toNat * 2 ^ (32 * k)) 0

/-- Whether a narrow store that the fragment issued in one of some streams has met an error that is not reported (08 R224). -/
def narrowDue (g : Group) (f : Frag) (streams : BitVec 16) : Bool :=
  g.narrow.any fun x => streams.getLsbD x.1.toNat && f.mask.getLsbD (lowestLane x.2.1)

/-- ST and STS (08 R227, R230).  A release store comes when no narrow store of its fragment and stream has met an error (08 R224), after the
earlier accesses of its stream. -/
def storesDeed (s : State) (g : Group) (f : Frag) : Instr → Option Deed
  | .st8 px d am a b _ r => st px d am a b r 1 1
  | .st16 px d am a b _ r => st px d am a b r 1 2
  | .st32 px d am a b _ r => st px d am a b r 1 4
  | .st64 px d am a b _ r => st px d am a b r 2 8
  | .st128 px d am a b _ r => st px d am a b r 4 16
  | .sts32 px d a b => sts px d a b 1
  | .sts64 px d a b => sts px d a b 2
  | .sts128 px d a b => sts px d a b 4
  | _ => none
where
  st (px : Option Modw) (d : BitVec 7) (am : BitVec 1) (a : BitVec 6) (b : BitVec 7) (r : BitVec 1) (n size : Nat) : Option Deed :=
    if r = 1 ∧ narrowDue g f (1#16 <<< (mw px).str.toNat) = true then none
    else (storeDeed s g f px (regsFrom (g.abs d) n ++ memVs g am b) (memSs am a) size (laneData g (g.abs d) n) (memAddr g am a b)).map fun e =>
      { e with ordinary := r == 1, rel := if r = 1 then 1#16 <<< (mw px).str.toNat else 0, far := farScope px }
  sts (px : Option Modw) (d : BitVec 7) (a : BitVec 6) (b : BitVec 7) (n : Nat) : Option Deed :=
    (storeDeed s g f px (regsFrom (g.abs d) n ++ [g.abs b]) [a.toNat] (4 * n) (laneData g (g.abs d) n) (windowAddr g a b)).map fun e =>
      { e with ordinary := true }

/-- The addresses of `k` planes (08 R231): the base in s[a+1]:s[a], the stride in s[a+2]. -/
def planesAt (g : Group) (a : BitVec 5) (k : Nat) : List Dword :=
  (List.range k).map fun j => g.getPair (2 * a.toNat) + BitVec.ofNat 64 (j * (g.getS (2 * a.toNat + 2)).toNat)

/-- PLD and PST of planes that pass their checks (08 R231, R232); with no active lane, nothing. -/
def planesDeed (s : State) (g : Group) (f : Frag) : Instr → Option Deed
  | .pld px d a n r l =>
    let c := ctxOf s g f (unitWords px)
    let ls := lanesOf (activeOf g f px)
    let k := n.toNat + 1
    if ls = [] then some (base px d a s)
    else match checkPlanes c .load ls a (if r = 1 ∧ k < 8 then k + 1 else k) with
      | .bad _ => none
      | .ok s1 pl =>
        if pl.any fun x => (viewOf s g).broken s1 g.part x.2.2 16 then none
        else
          let sent := sendFlits { s1 with nextId := s1.nextId + 1 } g.part (pl.map fun x => (32, x.2.2))
          let rows := pl.map fun x => readLocs s1 (viewOf s g) x.2.2 16
          -- the mantissa stands at the top of the word (08 R231)
          let ws := ls.map fun i =>
            ({ reg := .v (g.abs d), lane := i,
               val := BitVec.ofNat 32 (wrapNat 32 (planeMant k (rows.map fun bs => nibbleOf bs i) * (2 ^ (32 - 4 * k) : Nat))) } : RegWrite)
          some { base px d a s with
            after := withOut sent.1 g f { resultOf s1 f .load [g.abs d] l ws with
              str := (mw px).str, addrs := ls.map fun i => (i, (pl.head?.map fun x => x.2.1).getD 0), flits := sent.2 } }
  | .pst px d a n =>
    let c := ctxOf s g f (unitWords px)
    let ls := lanesOf (activeOf g f px)
    if ls = [] then some (base px d a s)
    else match checkPlanes c .store ls a (n.toNat + 1) with
      | .bad _ => none
      | .ok s1 pl => (storeAfter s1 g f px (pl.map fun x => planePiece c d ls x.1 x.2.1 x.2.2)).map fun t => base px d a t
  | _ => none
where
  base (px : Option Modw) (d : BitVec 7) (a : BitVec 5) (t : State) : Deed :=
    { words := unitWords px, vs := [g.abs d], ss := [2 * a.toNat, 2 * a.toNat + 1, 2 * a.toNat + 2], after := t }

/-! #### Requests to homes (11 R285, R305, R306; 12 R309 to R311) -/

/-- Whether a unit waits for room in the queues of some homes (11 R286); in Ephemeris mode it does not, for its requests are held to the end of the
quantum (17 R404, R406). -/
def noRoom (s : State) (g : Group) (homes : List Nat) : Bool := (s.ephGrid g).isNone && homes.any (homeFull s)

/-- The fields that the requests of one unit share. -/
def requestOf (s : State) (g : Group) (f : Frag) (id lane : Nat) (base : Dword) (loc : Loc) (ask : Ask) (op0 op1 : Word) (reply : Option ReplyTo)
    (str : BitVec 4) : Request :=
  { id := id, home := homeOf s g.part base, source := sourceId s g lane, lane := lane, base := base, loc := loc, ask := ask, op0 := op0, op1 := op1,
    rights := s.rightsOf g, grid := (s.gridOf g).map Grid.id, reply := reply, pc := f.pc, group := some g.id, str := str, frag := f.id,
    unit := s.nextId, time := none, port := none }

/-- ATOM and RED: one request for each active lane, in lane order, with the operands of v[d] and v[d+1]; a scratchpad element is a window
atomic.  An ATOM awaits a reply in every lane. -/
def atomicDeed (s : State) (g : Group) (f : Frag) (px : Option Modw) (d a : BitVec 7) (o : BitVec 4) (t : BitVec 3) (la : Option (BitVec 4)) :
    Option Deed :=
  let ls := lanesOf (activeOf g f px)
  let size := if t = 2 ∨ t = 3 ∨ t = 5 then 8 else 4
  let base : Deed := { words := unitWords px, vs := [g.abs d, g.abs d + 1, g.abs a, g.abs a + 1], rel := 1#16 <<< (mw px).str.toNat,
                       ends := { region := true, quantum := la.isSome }, ordinary := true, after := s }
  if ls = [] then some base
  else match checkLanes (ctxOf s g f (unitWords px)) .update (ls.map fun i => (i, g.getV64 (g.abs a) i, size)) with
    | .bad _ => none
    | .ok s1 l =>
      let near := l.filter fun x => match x.2.2 with | .slice .. => false | .mem k => keyTier k != 3
      if noRoom s g (near.map fun x => homeOf s g.part x.2.1) then none
      else
        let s2 : State := { s1 with nextId := s1.nextId + 1 + l.length }
        let reply : Option ReplyTo := la.map fun _ => { group := g.id, frag := f.id, out := s1.nextId }
        let s3 := match la with
          | none => s2
          | some w => withOut s2 g f { resultOf s1 f .atom [g.abs d, g.abs d + 1] w [] with
              str := (mw px).str, awaits := ls, addrs := l.map fun x => (x.1, x.2.1) }
        let ask := l.mapIdx fun n x =>
          let r := requestOf s g f (s1.nextId + 1 + n) x.1 x.2.1 x.2.2 (.intrinsic o t) (g.getV (g.abs d) x.1) (g.getV (g.abs d + 1) x.1) reply (mw px).str
          match x.2.2 with | .slice .. => Effect.windowAtomic r | .mem _ => Effect.request r
        some { base with after := emitAll s3 g.id ask }

/-- OBJCALL and OBJPOST: one request for each active lane; a post of a method is held with its batch (11 R294, R305). -/
def callDeed (s : State) (g : Group) (f : Frag) (px : Option Modw) (d a m : BitVec 7) (la : Option (BitVec 4)) : Option Deed :=
  let c := ctxOf s g f (unitWords px)
  let ls := lanesOf (activeOf g f px)
  let bs := ls.map fun i => (i, g.getV64 (g.abs a) i)
  let far := fun (x : Nat × Dword) => keyTier (match objectLoc c x.2 with | .mem k => k | .slice .. => 0) == 3
  let homes := (bs.filter fun x => !(far x)).map fun x => homeOf s g.part x.2
  let base : Deed := { words := unitWords px, vs := [g.abs d, g.abs d + 1, g.abs a, g.abs a + 1], rel := 1#16 <<< (mw px).str.toNat,
                       ends := { region := true, quantum := la.isSome }, ordinary := la.isSome, after := s }
  let s2 : State := { s with nextId := s.nextId + 1 + ls.length }
  let reply : Option ReplyTo := la.map fun _ => { group := g.id, frag := f.id, out := s.nextId }
  let reqs := bs.mapIdx fun n x =>
    requestOf s g f (s.nextId + 1 + n) x.1 x.2 (objectLoc c x.2) (.method m) (g.getV (g.abs d) x.1) (g.getV (g.abs d + 1) x.1) reply (mw px).str
  if ls = [] then some base
  else if (checkBases c bs).isSome then none
  else match g.role with
    | .service h sg =>
      if homes.contains h then none
      else some { base with after := s2.modHome h fun x =>
        { x with batches := x.batches.map fun b => if b.sg = sg then { b with posts := b.posts ++ reqs } else b } }
    | .ordinary =>
      if noRoom s g homes then none
      else
        let s3 := match la with
          | none => s2
          | some w => withOut s2 g f { resultOf s f .objcall [g.abs d, g.abs d + 1] w [] with str := (mw px).str, awaits := ls, addrs := bs }
        some { base with after := emitAll s3 g.id (reqs.map Effect.request) }

/-- OBJBIND and OBJUNBIND: one request of the fragment, whose status is the interlocked result s[d] (11 R306). -/
def bindDeed (s : State) (g : Group) (f : Frag) (d : BitVec 6) (ss : List Nat) (x : Dword) (ask : Ask) : Option Deed :=
  let c := ctxOf s g f 1
  if (checkBases c [(0, x)]).isSome || noRoom s g [homeOf s g.part x] then none
  else
    let o : Out := { resultOf s f .kept [] 15#4 [] with regs := [.s d.toNat], interlock := true, awaits := [0] }
    let r := requestOf s g f (s.nextId + 1) 0 x (objectLoc c x) ask 0 0 (some { group := g.id, frag := f.id, out := s.nextId }) 0
    some { ss := d.toNat :: ss, ends := { region := true }, ordinary := true
           after := emit (withOut { s with nextId := s.nextId + 2 } g f o) g.id (.request r) }

/-- The instructions that send requests to homes. -/
def requestDeed (s : State) (g : Group) (f : Frag) : Instr → Option Deed
  | .atom px d a o t l => atomicDeed s g f px d a o t (some l)
  | .red px d a o t => atomicDeed s g f px d a o t none
  | .objcall px d a m l => callDeed s g f px d a m (some l)
  | .objpost px d a m => callDeed s g f px d a m none
  | .objbind d a b =>
    bindDeed s g f d [2 * a.toNat, 2 * a.toNat + 1, 2 * b.toNat, 2 * b.toNat + 1] (g.getPair (2 * a.toNat))
      (.bind (g.getS (2 * b.toNat)) (g.getS (2 * b.toNat + 1)) (match s.gridOf g with | none => 0 | some x => x.record.methods))
  | .objunbind d a => bindDeed s g f d [2 * a.toNat, 2 * a.toNat + 1] (g.getPair (2 * a.toNat)) .unbind
  | _ => none

/-! #### Barriers, waits, fences (12 R316 to R321, 13 R335) -/

/-- The barrier word that s[a] names (12 R319): an offset that is a multiple of 8, below 128 and below the slice size. -/
def barrierWord (s : State) (g : Group) (a : BitVec 6) : Option Nat :=
  let off := (g.getS a.toNat).toNat
  let len := match s.team? g.team with | none => 0 | some t => t.sliceLen
  if off % 8 = 0 ∧ off < 128 ∧ off < len then some (off / 8) else none

/-- The streams that a unit orders before itself (10 R266, 13 R327). -/
def streamOfUnit (px : Option Modw) : BitVec 16 := 1#16 <<< (mw px).str.toNat

/-- A fragment whose condition its group does not see to hold parks; where a release that the group has not seen has met it, it goes on after that
release (17 R405). -/
def parks (s : State) (g : Group) (f : Frag) (met : Option Nat) (w : Wait) (wire : List (Nat × BitVec 12)) : State :=
  match met with
  | some q => s.modGroup g.id fun y => withFrag y f fun x => { x with after := max x.after q }
  | none => s.modGroup g.id fun y => withFrag y f fun x => { x with wait := some w, wire := wire }

/-- BARI, BARA, BARAW, BARW and WAITV: the fragment goes on, or waits. -/
def barrierDeed (s : State) (g : Group) (f : Frag) : Instr → Option Deed
  | .bari px a b =>
    let n := g.getS b.toNat
    match barrierWord s g a with
    | none => none
    | some w =>
      let v := barView (ctxOf s g f (unitWords px)) w
      if n = 0 ∨ 65535 < n.toNat ∨ (v.armed ∧ v.count ≠ n.toNat ∧ v.arrived ≠ 0) then none
      else some { words := unitWords px, ss := [a.toNat, b.toNat], ends := { region := true, quantum := true }, ordinary := true
                  after := emit s g.id (.barInit w n) }
  | .bara px d a => (barrierWord s g a).map fun w => arrive px d a w false
  | .baraw px d a => (barrierWord s g a).map fun w => arrive px d a w true
  | .barw px a b =>
    (barrierWord s g a).map fun w =>
      let at_ := Loc.slice g.team (8 * w)
      let passed := fun (x : Nat) => phasePassed (x / 2 ^ 32) (g.getS b.toNat)
      waiting px [a.toNat, b.toNat]
        (if armedSeen s g w ∧ passed (natOfBytes (readLocs s (viewOf s g) at_ 8)) = true then s
         else parks s g f (if isArmed s g.team w then firstMeet s g at_ 8 passed else none) (.phase w (g.getS b.toNat)) [])
  | .waitv px d a w r =>
    let x := g.getPair (2 * a.toNat)
    let z := if w = 1 then 8 else 4
    let cmp : Dword := if w = 1 then g.getPair d.toNat else (g.getS d.toNat).setWidth 64
    match checkLanes (ctxOf s g f (unitWords px)) .load [(0, x, z)] with
    | .ok s1 [(_, _, l)] =>
      if (viewOf s g).broken s1 g.part l z then none
      else
        let sent := sendFlit s1 g.part l
        let holds := fun (x : Nat) => relHolds r.toNat (8 * z) x cmp.toNat
        some (waiting px ([2 * a.toNat, 2 * a.toNat + 1] ++ (if w = 1 then [d.toNat, d.toNat + 1] else [d.toNat]))
          (if holds (natOfBytes (readLocs sent.1 (viewOf s g) l z)) then sent.1
           else parks sent.1 g f (firstMeet sent.1 g l z holds) (.watch l x z r cmp (locTier l == 1) false f.pc) sent.2))
    | _ => none
  | _ => none
where
  arrive (px : Option Modw) (d a : BitVec 6) (w : Nat) (thenWait : Bool) : Deed :=
    { words := unitWords px, ss := [d.toNat, a.toNat], rel := streamOfUnit px, ends := { path := true, region := true, quantum := true }
      ordinary := true, free := true, after := emit s g.id (.barArrive w f.id d thenWait) }
  waiting (px : Option Modw) (ss : List Nat) (t : State) : Deed :=
    { words := unitWords px, ss := ss, ends := { path := true, quantum := true }, ordinary := true, free := true, after := t }

/-- The fences: when no narrow store of the fragment in their streams has met an error, a release side after the atomics of its streams, an acquire
side once every outstanding load, atomic and call of its streams has landed; the streams of a mask are joined, no PADDC of them having a commit to
make (13 R335, 18 R415).  In Ephemeris mode at once, with no other effect (17 R409). -/
def fenceDeed (s : State) (g : Group) (f : Frag) : Instr → Option Deed
  | .fenceAcq px => fence px (streamOfUnit px) true false
  | .fenceRel px => fence px (streamOfUnit px) false true
  | .fenceFull px => fence px (streamOfUnit px) true true
  | .xfenceAcq px m => fence px m true false
  | .xfenceRel px m => fence px m false true
  | .xfenceFull px m => fence px m true true
  | _ => none
where
  fence (px : Option Modw) (m : BitVec 16) (acquire release : Bool) : Option Deed :=
    let late := g.frags.any fun f => f.outs.any fun o =>
      !o.landed && m.getLsbD o.str.toNat && (match o.kind with | .load => true | .atom => true | .objcall => true | _ => false)
    let base : Deed := { words := unitWords px, rel := if release then m else 0, far := farScope px, ordinary := true, after := s }
    if narrowDue g f m = true then none
    else if s.ephGrid g ≠ none then some base
    else if (acquire = true ∧ late = true) ∨ (m &&& (m - 1) ≠ 0 ∧ (g.openCommits.any fun o => m.getLsbD o.str.toNat) = true) then none
    else some { base with after := joinStreams s g.id m }

/-! #### Work queues, launches, child grids, gangs (05 R137 to R144) -/

/-- The work queue that s[a] names, when system software has set it up. -/
def queueOf (s : State) (g : Group) (a : BitVec 6) : Option Nat :=
  let n := (g.getS a.toNat).toNat
  if n < 64 ∧ (workQ? s g.part n).isSome then some n else none

/-- DEQ, DEQT, ENQ, LAUNCH, LAUNCHI, CWAIT and GANGSET; in Ephemeris mode ENQ in logical order (17 R406). -/
def queueDeed (s : State) (g : Group) (f : Frag) : Instr → Option Deed
  | .deq px d a l =>
    (queueOf s g a).map fun q =>
      { words := unitWords px, ss := a.toNat :: quadRegs d, ends := { path := true, region := true, quantum := true }, ordinary := true, free := true
        after := emit { s with nextId := s.nextId + 1 } g.id (.deq q f.id (16 * s.nextId + l.toNat) (4 * d.toNat)) }
  | .deqt px d a p =>
    (queueOf s g a).map fun q =>
      { words := unitWords px, ss := a.toNat :: quadRegs d, ends := { region := true, quantum := true }, ordinary := true
        after := emit s g.id (.deqt q f.id (4 * d.toNat) p) }
  | .enq px d a =>
    let ls := lanesOf (activeOf g f px)
    let base : Deed := { words := unitWords px, vs := regsFrom (g.abs d) 4, ss := [a.toNat], rel := streamOfUnit px, ends := { region := true }
                         ordinary := true, after := s }
    if ls = [] then some base
    else match queueOf s g a with
      | none => none
      | some q =>
        let w := (workQ? s g.part q).getD {}
        if logicalTurn s g = false ∨ 2 ^ w.k < w.items.length + heldItems g q + ls.length then none
        else some { base with after := emit s g.id (.enq q (ls.map fun i => [g.getV (g.abs d) i, g.getV (g.abs d + 1) i, g.getV (g.abs d + 2) i, g.getV (g.abs d + 3) i])) }
  | .launch px d a b => launch px d a b false
  | .launchi px d a b => launch px d a b true
  | .cwait px a =>
    let n := g.getS a.toNat
    match s.team? g.team with
    | none => none
    | some t =>
      let ns := if n = 0 then t.launched else [n]
      let left := ns.filter fun x => !(t.retired.contains x)
      if (n ≠ 0 ∧ t.launched.contains n = false) ∨ (s.ephGrid g ≠ none ∧ ns ≠ []) then none
      else some { words := unitWords px, ss := [a.toNat], ends := { path := true, quantum := true }, ordinary := true, free := true
                  after := if left = [] then s else s.setGroup (withFrag g f fun x => { x with wait := some (.grids left) }) }
  | .gangset a =>
    let x := g.getPair (2 * a.toNat)
    let held := match g.logical with | none => false | some l => l.held.any Effect.isJoint
    if held = true ∨ (s.mats.any fun q => q.cmds.any fun m => m.group == g.id && m.latched) = true then none
    else match s.team? g.team with
      | none => none
      | some t =>
        if gangLegal t g ((s.gridOf g).any fun d => d.record.gangPref != 0) (s.groupsPerTeam g) x then
          some { ss := [2 * a.toNat, 2 * a.toNat + 1]
                 after := { s.setGroup { g with gang := x, joints := 0 } with
                   latches := s.latches.filter fun l => !(l.failed && l.members.contains g.id) } }
        else none
  | _ => none
where
  /-- A record that is read and submitted: d takes the grid number and the status (05 R140). -/
  launch (px : Option Modw) (d a : BitVec 5) (b : BitVec 6) (indirect : Bool) : Option Deed :=
    match s.gridOf g, readRecord (ctxOf s g f (unitWords px)) (g.getPair (2 * a.toNat)) 256 64 with
    | some grid, .ok (s1, bs) =>
      if g.num ≠ 0 ∨ 10 ≤ grid.record.depth.toNat ∨ 16 ≤ (g.getS b.toNat).toNat then none
      else
        let sys := s.isSysGroup g
        let r := submitRecord s1 g.part (g.getS b.toNat).toNat (childBytes bs grid.record.depth.toNat indirect) { team := some g.team, sys := sys } sys
          (s.ephGrid g).isSome
        let s2 := if r.1 = 0 then r.2.2.modTeam g.team fun t => { t with launched := t.launched ++ [r.2.1], retired := t.retired.filter fun x => x != r.2.1 } else r.2.2
        some { words := unitWords px, ss := [2 * d.toNat, 2 * d.toNat + 1, 2 * a.toNat, 2 * a.toNat + 1, b.toNat], rel := streamOfUnit px
               ends := { region := true }, ordinary := true, free := true
               after := s2.modGroup g.id fun y => (y.setS (2 * d.toNat) r.2.1).setS (2 * d.toNat + 1) (r.1.setWidth 32) }
    | _, _ => none

/-! #### Engines and handles (10 R274 to R278, 19 R438) -/

/-- HBIND, FEED, FEED.WB, CPY, COLL, QFENCE, QWAIT and PADDC. -/
def engineDeed (s : State) (g : Group) (f : Frag) : Instr → Option Deed
  | .hbind px d a b =>
    let t := d.toNat
    let dest := g.getS b.toNat
    let core := (s.coreOf g).getD 0
    match readRecord (ctxOf s g f (unitWords px)) (g.getPair (2 * a.toNat)) 64 64 with
    | .error _ => none
    | .ok (s1, bs) =>
      let r := parseShape bs
      let h := boundHandle t (g.getPair (2 * a.toNat)) dest r
      let free := match streamOf h with | none => true | some n => fifoFree s1 core n g.id t && !(fifoInUse s1 core n g.id)
      if g.handleN ≤ t ∨ handleBusy s g t = true ∨ shapeOk r = false ∨ destOk dest = false ∨ free = false then none
      else
        let empty := fun (x : Fifo) => { x with bound := none, tiles := [], discard := 0, pause := none, got := {} }
        let s2 : State := { s1 with fifos := s1.fifos.map fun x => if x.core == core && x.bound == some (g.id, t) then empty x else x }
        let s3 := match streamOf h with | none => s2 | some n => modFifo s2 core n fun x => { empty x with bound := some (g.id, t) }
        some { words := unitWords px, ss := [b.toNat, 2 * a.toNat, 2 * a.toNat + 1], ends := { region := true }, ordinary := true
               after := s3.modGroup g.id fun y => y.setHandle h }
  | .feed px d a b cm tr => feed px d a b cm tr false
  | .feedWb px d a b cm tr => feed px d a b cm tr true
  | .cpy px d a b => copy px d a b false
  | .coll px d a b => copy px d a b true
  | .qfence a =>
    let m := g.getS a.toNat
    if m.extractLsb' 20 12 ≠ 0 then none
    else if m = 0 then some { ss := [a.toNat], after := s }
    else some { ss := [a.toNat], after := emit { s with nextId := s.nextId + 1 } g.id (match s.coreOf g with
      | none => .marker (m &&& 0xFFFF#32) 0 s.nextId | some core => .marker m core s.nextId) }
  | .qwait px a b =>
    let q := (g.getS a.toNat).toNat
    let n := g.getS b.toNat
    let base : Deed := { words := unitWords px, ss := [a.toNat, b.toNat], ends := { path := true, quantum := true }, free := true, after := s }
    match queueSeq s g q with
    | none => none
    | some (next, done) =>
      if n = 0 then some base
      else if seqIssued next done n = false then none
      else if queueComplete s g q n then some { base with after := s.setGroup (withFrag g f fun x => { x with after := max x.after (queueTime s g q n) }) }
      else some { base with after := s.setGroup (withFrag g f fun x => { x with wait := some (.queue q n) }) }
  | _ => none
where
  feed (px : Option Modw) (d : BitVec 6) (a b : BitVec 4) (cm tr : BitVec 1) (wb : Bool) : Option Deed :=
    let core := (s.coreOf g).getD 0
    match g.handle? b.toNat with
    | none => none
    | some h =>
      let n := (h.dest.extractLsb' 28 2).toNat
      match feeder? s core n with
      | none => none
      | some q =>
        if g.handleN ≤ b.toNat ∨ (wb = true ∧ (streamOf h).isSome = true) ∨ logicalTurn s g = false ∨
            (s.ephGrid g = none ∧ 16 ≤ countCmds q.items) then none
        else
          let w := fun (k : Nat) => g.getS (4 * a.toNat + k)
          let cmd : Feed :=
            { seq := q.nextSeq, group := g.id, handle := b.toNat, record := h.record, dest := h.dest, row0 := w 0, col0 := w 1, h := w 2, w := w 3,
              tr := tr == 1, cm := cm == 1, wb := wb, after := g.cmds, rights := s.rightsOf g, team := g.team,
              grid := ((s.gridOf g).map Grid.id).getD 0, str := (mw px).str, quantum := 0 }
          let s1 := modFeeder s core n fun x => { x with nextSeq := nextNumber x.nextSeq }
          some { words := unitWords px, ss := d.toNat :: quadRegs a, rel := streamOfUnit px, ends := { region := true }, ordinary := true
                 after := emit (s1.setGroup ((g.setHandle { h with lastFeed := q.nextSeq }).setS d.toNat q.nextSeq)) g.id (.feed core n cmd) }
  copy (px : Option Modw) (d : BitVec 6) (a : BitVec 5) (b : BitVec 6) (coll : Bool) : Option Deed :=
    let n := (g.getS b.toNat).toNat
    match readRecord (ctxOf s g f (unitWords px)) (g.getPair (2 * a.toNat)) 64 64 with
    | .error _ => none
    | .ok (s1, bs) =>
      match copyQ? s1 g.part n with
      | none => none
      | some q =>
        if 16 ≤ n ∨ logicalTurn s g = false ∨ (s.ephGrid g = none ∧ 64 ≤ countCmds q.items) then none
        else
          let cmd : CopyCmd :=
            { seq := q.nextSeq, bytes := bs, coll := coll, rights := s.rightsOf g, group := some g.id, grid := (s.gridOf g).map Grid.id
              str := (mw px).str, quantum := 0 }
          let s2 := modCopyQ s1 g.part n fun x => { x with nextSeq := nextNumber x.nextSeq }
          some { words := unitWords px, ss := [d.toNat, b.toNat, 2 * a.toNat, 2 * a.toNat + 1], rel := streamOfUnit px, ends := { region := true }
                 ordinary := coll, after := emit (s2.modGroup g.id fun y => y.setS d.toNat q.nextSeq) g.id (.copy n cmd) }

/-! #### Matrix commands (14 R342 to R360, 15 R371 to R375) -/

/-- What every matrix command needs: its command pair, its slot and relation (03 R66, 14 R346), its accumulator tiles and handles (03 R65),
its lanes all or none under the guard (03 R78), and room in the queue (14 R342, 17 R407). -/
structure MatNeeds where
  px      : Option Mxw
  d       : BitVec 5
  stats   : Bool
  tiles   : List (Nat × Nat)
  handles : List (BitVec 4)
  slot    : Option (BitVec 3)
  accepts : Elem → Nat → Bool

/-- Whether they are met. -/
def MatNeeds.met (n : MatNeeds) (s : State) (g : Group) (f : Frag) : Bool :=
  let rel := (xw n.px).rel.toNat
  let loaded := match s.team? g.team with | none => false | some t => (sfind t.rels rel).isSome
  let slotOk := match n.slot with
    | none => true
    | some k => match slotElem (slotWord s g k.toNat) with | none => false | some F => n.accepts F (slotScale (slotWord s g k.toNat))
  let room := (s.ephGrid g).isSome || !(match matQ? s ((s.coreOf g).getD 0) with | none => false | some q => decide (64 ≤ (q.cmds.filter MatCmd.isCommand).length))
  f.mask &&& g.getP (xw n.px).guard.toNat == f.mask && f.mask != 0 && cwLegal (g.getS (2 * n.d.toNat)) n.stats && slotOk &&
    (rel == 0 || loaded) && (n.tiles.all fun x => decide (x.1 + x.2 ≤ g.tiles)) && (n.handles.all fun h => decide (h.toNat < g.handleN)) && room

/-- Whether a unit whose guard is false in every lane passes its checks: the registers, handles, slot and relation that it names (03 R65, R66,
14 R346). -/
def MatNeeds.named (n : MatNeeds) (s : State) (g : Group) : Bool :=
  let rel := (xw n.px).rel.toNat
  let loaded := match s.team? g.team with | none => false | some t => (sfind t.rels rel).isSome
  let slotOk := match n.slot with
    | none => true
    | some k => match slotElem (slotWord s g k.toNat) with | none => false | some F => n.accepts F (slotScale (slotWord s g k.toNat))
  slotOk && (rel == 0 || loaded) && (!(cwLegal (g.getS (2 * n.d.toNat)) n.stats) || n.tiles.all fun x => decide (x.1 + x.2 ≤ g.tiles)) &&
    n.handles.all fun h => decide (h.toNat < g.handleN)

/-- A matrix instruction under its guard: with no lane it has no effect (03 R78, 14 R342). -/
def MatNeeds.guarded (n : MatNeeds) (s : State) (g : Group) (f : Frag) (x : Option Deed) : Option Deed :=
  if f.mask &&& g.getP (xw n.px).guard.toNat = 0 then
    if n.named s g then
      some { words := unitWords n.px, ss := [2 * n.d.toNat, 2 * n.d.toNat + 1], ends := { region := true }, ordinary := true, after := s }
    else none
  else x

/-- The command of a matrix instruction, as its unit captures it (14 R342). -/
def commandOf (s : State) (g : Group) (f : Frag) (n : MatNeeds) (kind : MatKind) (ha hb : Nat) (slot : BitVec 3) : MatCmd :=
  { id := s.nextId, group := g.id, mask := f.mask, pc := f.pc, index := g.cmds, kind := kind, word := g.getS (2 * n.d.toNat)
    aux := g.getS (2 * n.d.toNat + 1), ha := ha, hb := hb, slot := slot.setWidth 32, px := xw n.px
    rel := if (xw n.px).rel = 0 then none else (s.team? g.team).bind fun t => sfind t.rels (xw n.px).rel.toNat
    smscale := g.smscale, joint := none, batch := g.nextBatch, fills := [], quantum := 0, latched := false, started := false, failed := none
    aTiles := [], bTiles := [] }

/-- The command enters the queue of the group's core, and the group's order counts it. -/
def matrixEntry (s : State) (g : Group) (n : MatNeeds) (joint : Bool) (m : MatCmd) : Deed :=
  { words := unitWords n.px, ss := [2 * n.d.toNat, 2 * n.d.toNat + 1], ends := { region := true }, ordinary := true
    after := emit ({ s with nextId := s.nextId + 1 }.setGroup { g with cmds := g.cmds + 1, joints := if joint then g.joints + 1 else g.joints }) g.id
      (.matrix ((s.coreOf g).getD 0) m) }

/-- A stream operand of the slot's format (14 R347). -/
def operandOk (s : State) (g : Group) (slot : BitVec 3) (h : BitVec 4) : Bool :=
  match g.handle? h.toNat with
  | none => false
  | some x => !(x.dest.getLsbD 31) && x.format == ((slotWord s g slot.toNat).extractLsb' 0 6).setWidth 8

/-- The accumulator type and the multiple that K must be, by the slot (04 R113). -/
def shapeFits (s : State) (g : Group) (slot : BitVec 3) (w : Word) : Bool :=
  match slotElem (slotWord s g slot.toNat) with
  | none => false
  | some F => let k := chunkOf F (slotScale (slotWord s g slot.toNat)); k.2 == cwType w && cwK w % k.1 == 0

/-- MMA, its joint form, MMAS, MMAP, MZERO, MLDA, MSTA, MNORM and MTR. -/
def matrixDeed (s : State) (g : Group) (f : Frag) : Instr → Option Deed
  | .mma px d a b k =>
    let n : MatNeeds := { px := px, d := d, stats := false, tiles := [(cwBase (w d), cwTiles (w d) + if (xw px).rel = 0 then 0 else 1)], handles := [a, b]
                          slot := some k, accepts := fun F _ => mmaAccepts F }
    n.guarded s g f <| if n.met s g f && shapeFits s g k (w d) && operandOk s g k a && operandOk s g k b then
      some (matrixEntry s g n false (commandOf s g f n .mma a.toNat b.toNat k))
    else none
  | .mmaGang px d a b k =>
    let n : MatNeeds := { px := px, d := d, stats := false, tiles := [(cwBase (w d), cwTiles (w d) + if (xw px).rel = 0 then 0 else 1)], handles := [a, b]
                          slot := some k, accepts := fun F _ => mmaAccepts F }
    let ms := gangMembers g.gang
    n.guarded s g f <| if n.met s g f && shapeFits s g k (w d) && operandOk s g k a && operandOk s g k b && ms != [] && decide (ms.length * cwN (w d) ≤ 512) then
      some (matrixEntry s g n true { commandOf s g f n .mma a.toNat b.toNat k with joint := some (g.joints, ms, (g.gang.extractLsb' 3 3).toNat) })
    else none
  | .mmas px d a b k =>
    let n : MatNeeds := { px := px, d := d, stats := false, tiles := [(cwBase (w d), cwTiles (w d) + 1)], handles := [a, b], slot := some k
                          accepts := fun F _ => mmaAccepts F }
    n.guarded s g f <| if n.met s g f && shapeFits s g k (w d) && cwType (w d) == 0 && operandOk s g k a && operandOk s g k b then
      some (matrixEntry s g n false (commandOf s g f n .mmas a.toNat b.toNat k))
    else none
  | .mmap px d b k =>
    let aux := g.getS (2 * d.toNat + 1)
    let n : MatNeeds := { px := px, d := d, stats := false, handles := [b], slot := some k, accepts := fun F _ => mmapAccepts F
                          tiles := [(cwBase (w d), cwTiles (w d) + 1), ((pTiles (w d) aux).1, (pTiles (w d) aux).2 + 1)] }
    n.guarded s g f <| if n.met s g f && cwType (w d) == 0 && [32, 64, 128].contains (cwK (w d)) && aux.extractLsb' 7 25 == 0 && operandOk s g k b then
      some (matrixEntry s g n false (commandOf s g f n .mmap 0 b.toNat k))
    else none
  | .mzero px d => macc px d .mzero false
  | .mlda px d => macc px d .mlda true
  | .msta px d => macc px d .msta true
  | .mnorm px d =>
    let n : MatNeeds := { px := px, d := d, stats := false, tiles := [(cwBase (w d), cwTiles (w d) + 1)], handles := [], slot := none, accepts := fun _ _ => true }
    n.guarded s g f <| if n.met s g f && cwType (w d) == 0 then some (matrixEntry s g n false (commandOf s g f n .mnorm 0 0 0)) else none
  | .mtr px d a b k =>
    let m := xw px
    let sw := slotWord s g k.toNat
    let code := if m.rq then sw.extractLsb' 0 6 else accCode (cwType (w d))
    let aux := (g.getS (2 * d.toNat + 1)).toNat
    let n : MatNeeds := { px := px, d := d, stats := false, tiles := [(cwBase (w d), cwTiles (w d))], handles := if m.bias then [a, b] else [a]
                          slot := if m.rq then some k else none, accepts := fun _ form => decide (form < 2) }
    n.guarded s g f <| match tile a, elemOf code with
    | some h, some F =>
      let bias := if m.bias then tile b else none
      let fits := decide (tileBase h + tileBytes F (m.rq && slotScale sw == 1) (cwM (w d)) (cwN (w d)) 0 ≤ slice) &&
        (!m.act || (aux % 128 == 0 && decide (aux + 2048 ≤ slice)))
      if n.met s g f && !(cwType (w d) == 1 && (m.bias || m.act)) && !h.hasLabels && h.format == code.setWidth 8 && (!m.bias || bias.isSome) && fits then
        some (matrixEntry s g n false { commandOf s g f n .mtr a.toNat b.toNat k with
          fills := fillOf h ++ (match bias with | none => [] | some x => fillOf x) })
      else none
    | _, _ => none
  | _ => none
where
  w (d : BitVec 5) : Word := g.getS (2 * d.toNat)
  slice : Nat := match s.team? g.team with | none => 0 | some t => t.sliceLen
  tile (h : BitVec 4) : Option Handle := match g.handle? h.toNat with | none => none | some x => if x.dest.getLsbD 31 then some x else none
  macc (px : Option Mxw) (d : BitVec 5) (kind : MatKind) (copies : Bool) : Option Deed :=
    let k := cwTiles (w d) + if (w d).getLsbD 7 then 1 else 0
    let aux := (g.getS (2 * d.toNat + 1)).toNat
    let n : MatNeeds := { px := px, d := d, stats := true, tiles := [(cwBase (w d), k)], handles := [], slot := none, accepts := fun _ _ => true }
    n.guarded s g f <| if n.met s g f && (!copies || (aux % 128 == 0 && decide (aux + 4096 * k ≤ slice))) then some (matrixEntry s g n false (commandOf s g f n kind 0 0 0))
    else none

/-- MSTAT, MWAIT and MLBL (14 R354, R360; 15 R371). -/
def matrixReadDeed (s : State) (g : Group) (f : Frag) : Instr → Option Deed
  | .mstatMax px d a => mstat px d a 0
  | .mstatSum px d a => mstat px d a 1
  | .mstatFlags px d a => mstat px d a 2
  | .mstatSkip px d a => mstat px d a 3
  | .mwait px a =>
    let n := g.getS a.toNat
    let base : Deed := { words := unitWords px, ss := [a.toNat], ends := { path := true, quantum := true }, ordinary := true, free := true, after := s }
    if n = 0 then some base
    else if batchKnown g n = false then none
    else if batchDone s g n then some base
    else some { base with after := s.setGroup (withFrag g f fun x => { x with wait := some (.batch n) }) }
  | .mlbl px d a =>
    match readRecord (ctxOf s g f (unitWords px)) (g.getPair (2 * a.toNat)) 16 16 with
    | .error _ => none
    | .ok (s1, bs) =>
      let w := BitVec.ofNat 128 (natOfBytes bs)
      if relLegal w then
        some { words := unitWords px, ss := [2 * a.toNat, 2 * a.toNat + 1], ordinary := true
               after := s1.modTeam g.team fun t => { t with rels := sput t.rels d.toNat w } }
      else none
  | _ => none
where
  /-- With active lanes: an interlocked result, and the place of the MSTAT among the group's matrix commands. -/
  mstat (px : Option Modw) (d : BitVec 7) (a : BitVec 6) (field : Nat) : Option Deed :=
    let sel := g.getS a.toNat
    let act := activeOf g f px
    let base : Deed := { words := unitWords px, vs := [g.abs d], ss := [a.toNat], ends := { quantum := true }, ordinary := true, after := s }
    if sel.extractLsb' 9 23 ≠ 0 ∨ g.tiles ≤ (sel.extractLsb' 0 7).toNat then none
    else if act = 0 then some base
    else
      let o : Out := { resultOf s f .compute [g.abs d] 15#4 [] with interlock := true, awaits := [0] }
      let n : MatNeeds := { px := none, d := 0, stats := false, tiles := [], handles := [], slot := none, accepts := fun _ _ => true }
      let m : MatCmd := { commandOf s g f n (.mstat field s.nextId (g.abs d) act) 0 0 0 with id := s.nextId + 1, word := sel, aux := 0 }
      some { base with after := emit (withOut { s with nextId := s.nextId + 2 } g f o) g.id (.matrix ((s.coreOf g).getD 0) m) }

/-- PADDC whose operands pass their checks and meet no error (18 R412 to R414): the flags as a result, and the new planes and scale as the
commit that is made before it lands (18 R415); in Ephemeris mode they are held with the group's other effects (18 R417). -/
def planeAddDeed (s : State) (g : Group) (f : Frag) : Instr → Option Deed
  | .paddc px d a b l =>
    let c := ctxOf s g f (unitWords px)
    let x := paddcArgs c a b
    match paddcCheck c x with
    | .bad _ => none
    | .ok s1 ls =>
      let tile := (List.range 256).map fun k => Loc.slice g.team (x.tile + 16 * k)
      if paddcWaits c (ls.map fun y => y.2.2) || (ls.map (fun y => y.2.2) ++ tile).any fun y => (viewOf s g).broken s1 g.part y 16 then none
      else
        let v := viewOf s1 g
        let rows := ls.map fun y => readLocs s1 v y.2.2 16
        let e := match ls.getLast? with | none => 0 | some y => (readLoc s1 v y.2.2).toNat
        let ms := (List.range 1024).map fun k =>
          toSigned 32 ((List.range 8).foldl (fun m j => 16 * m + nibbleOf (rows.getD (32 * j + k / 32) []) (k % 32)) 0)
        let us := (List.range 1024).map fun k => fmtF32.decode (natOfBytes (readLocs s1 v (.slice g.team (x.tile + 4 * k)) 4))
        let r := paddcBlock e ms us x.step x.norm
        let ps : List Piece := ls.mapIdx fun n y =>
          { loc := y.2.2, addr := y.2.1, mask := [], plane := true, bytes := if n < 256 then planeRow r.1 (n / 32) (n % 32) else [BitVec.ofNat 8 r.2.1] }
        if overflowsCommit g ps then none
        else
          let o : Out := { resultOf s1 f .kept [] l [{ reg := .s d.toNat, lane := 0, val := g.getS d.toNat ||| r.2.2 }] with
            regs := [.s d.toNat], str := (mw px).str }
          let s2 : State := { s1 with nextId := s1.nextId + 1 }
          some { words := unitWords px, ss := d.toNat :: (quadRegs a ++ quadRegs b), rel := streamOfUnit px, ends := { region := true }
                 ordinary := true
                 after := if s1.ephGrid g = none then withOut s2 g f { o with commit := ps }
                   else emit (withOut s2 g f o) g.id (.store ps (mw px).str f.pc f.mask) }
  | _ => none

/-! ### Units that move their group: traps, returns, splits, exit, the end of a method -/

/-- Every result of a group has landed. -/
def AllLanded (g : Group) : Prop := ∀ x ∈ g.frags, ∀ o ∈ x.outs, o.landed = true

/-- The trap record of fragment `f`, in a group as the handler finds it (16 R380, R383). -/
def trapRecordOf (g : Group) (f : Frag) (cause : Byte) (addr pc resume : Dword) (flags : Word) : TrapRecord :=
  { cause := cause.setWidth 32, mask := f.mask, addr := addr, pc := pc, resume := resume, regionEntry := f.region.entry, regionCount := g.regions
    flags := flags, window := BitVec.ofNat 32 g.window }

/-- The handler's own fragment: the mask of the fragment it holds, at the vector, in a region that begins there with nothing to restore, and
no result, wait or pending join (06 R165, 16 R380). -/
def handlerFrag (s : State) (g : Group) (f : Frag) (vector : Dword) : Frag :=
  { id := s.nextId, mask := f.mask, pc := vector, last := vector, join := none, split := 0, outs := [], wait := none, stopped := false, pending := []
    deferred := none, held := false, counted := false, ready := s.tick, promoted := none
    region := { entry := vector, sp := false, mask := 0, base := g.window, count := g.regions + 1, join := none, units := retiredOf g.logical } }

/-- State `t` is `s1` after a handler has started for fragment `f` of group `g` (16 R380): the trap record is written, every fragment of the
group is held with its results dropped, the handler's fragment begins at the vector, and a region begins; registers, memory and every other
group are as they were. -/
structure HandlerStarts (s1 t : State) (g : Group) (f : Frag) (cause : Byte) (addr pc resume : Dword) (flags : Word) (vector : Dword) : Prop where
  rest   : t = { s1 with groups := t.groups, nextId := s1.nextId + 1 }
  others : ∀ n, n ≠ g.id → t.group? n = s1.group? n
  group  : ∃ g1 f1 g2, s1.group? g.id = some g1 ∧ g1.frag? f.id = some f1 ∧ t.group? g.id = some g2 ∧
    g2 = { g1 with
      frags := g2.frags, trap := trapRecordOf g1 f1 cause addr pc resume flags, trapWait := none, regions := g1.regions + 1
      turn := none
      handler := some { frag := f.id, mask := f.mask, held := g1.frags.map Frag.id, stage := g1.stage, turn := g1.turn } } ∧
    g2.frag? s1.nextId = some (handlerFrag s1 g1 f1 vector) ∧
    ∀ n, n ≠ s1.nextId → g2.frag? n = (g1.frag? n).map fun x =>
      { x with held := false, outs := [], counted := if n = f.id then false else x.counted }

/-- Lane `i` of vector register `r` after the staged registers of a region have come back in the lanes of a fragment, and a scalar and a
predicate register after it (06 R168). -/
def unstagedV (g : Group) (x : Frag) (r i : Nat) : Word :=
  if x.region.base ≤ r ∧ r < x.region.base + 128 ∧ x.region.mask.getLsbD ((r - x.region.base) / 8) = true ∧ x.mask.getLsbD i = true then
    sget 0 g.stage.v (32 * r + i)
  else g.getV r i
def unstagedS (g : Group) (x : Frag) (n : Nat) : Word := if x.region.sp = true ∧ n < 64 then sget 0 g.stage.s n else g.getS n
def unstagedP (g : Group) (x : Frag) (n : Nat) : Word :=
  if x.region.sp = true ∧ 0 < n ∧ n < 16 then (g.getP n &&& ~~~x.mask) ||| (sget 0 g.stage.p n &&& x.mask) else g.getP n

/-- The trapped fragment after its handler (16 R385), with every result landed. -/
def ReturnMode.frag (m : ReturnMode) (resume : Dword) (x : Frag) : Frag :=
  match m with
  | .resume => { x with held := false, pc := resume }
  | .region => { x with held := false, pc := x.region.entry, join := x.region.join, outs := [], wait := none, counted := false }
  | .addr a => { x with held := false, pc := a, wait := none, counted := false }

/-- The results of a fragment after a return in some mode: a restart discards those of the trapped fragment, and the copies of them that a split
left elsewhere no longer write its lanes (06 R156, R168). -/
def ReturnMode.left (m : ReturnMode) (trapped : Option Frag) (l : List Out) : List Out :=
  match m, trapped with
  | .region, some y => l.map fun o => if (y.outs.map Out.id).contains o.id then o.withoutLanes y.mask else o
  | _, _ => l

/-- The fragment that a handler runs for. -/
def trapped (g : Group) (h : Handler) : Option Frag := if h.held.contains h.frag then g.frag? h.frag else none

/-- State `t` is `s` after the return from handler `h` of group `g` (16 R385): the held fragments are the group's again, the trapped one goes on
as the mode says, and the window and the stage block of before the trap are back; in mode 1 the staged registers of the trapped fragment's
region come back too.  Besides the groups only the snapshot counts change. -/
structure Returns (m : ReturnMode) (s t : State) (g : Group) (f : Frag) (h : Handler) : Prop where
  rest   : t = { s with groups := t.groups, dev := { s.dev with live := t.dev.live } }
  others : ∀ n, n ≠ g.id → t.group? n = s.group? n
  group  : ∃ g2, t.group? g.id = some g2 ∧
    g2 = { g with
      frags := g2.frags, handler := none, turn := h.turn, window := g.trap.window.toNat, stage := h.stage, v := g2.v, s := g2.s, p := g2.p
      strays := m.left (trapped g h) g.strays
      logical := g.logical.map (countUnit (quantumOf s g) false f.pc f.id) } ∧
    (∀ n, g2.frag? n = if h.held.contains n then (g.frag? n).map fun x =>
        if n = h.frag then m.frag g.trap.resume x else { x with held := false, outs := m.left (trapped g h) x.outs }
      else none) ∧
    (m ≠ .region → g2.v = g.v ∧ g2.s = g.s ∧ g2.p = g.p) ∧
    ∀ x, m = .region → g.frag? h.frag = some x → h.held.contains h.frag = true →
      Regs.wf g.v = true → Regs.wf g.s = true → Regs.wf g.p = true →
      (∀ r i, i < 32 → g2.getV r i = unstagedV { g with stage := h.stage } x r i) ∧ (∀ n, g2.getS n = unstagedS { g with stage := h.stage } x n) ∧
      ∀ n, g2.getP n = unstagedP { g with stage := h.stage } x n

/-- State `t` is `s1` after fragment `f` of group `g` has split (06 R156): a fragment of the taken lanes at the target, and one of the others
where `f` stood; with a pending join, both belong to a new split, which ends there. -/
structure Splits (s1 t : State) (g : Group) (f : Frag) (taken : Word) (target : Dword) : Prop where
  rest   : t = { s1 with groups := t.groups, nextId := s1.nextId + 3 }
  others : ∀ n, n ≠ g.id → t.group? n = s1.group? n
  group  : ∃ g1 f1, s1.group? g.id = some g1 ∧ g1.frag? f.id = some f1 ∧
    let sid := if f1.join.isSome then s1.nextId + 2 else f1.split
    t.group? g.id = some { g1 with
      frags := g1.frags.filter (fun x => x.id != f.id) ++
        [{ f1 with id := s1.nextId, mask := taken, pc := target, join := none, split := sid, pending := [] },
         { f1 with id := s1.nextId + 1, mask := f1.mask &&& ~~~taken, join := none, split := sid }]
      splits := g1.splits ++ (match f1.join with | none => [] | some j => [{ id := s1.nextId + 2, join := j, parent := f1.split }])
      logical := g1.logical.map fun l => if l.endFrag = f.id then
        { l with endFrag := if lowestLane taken < lowestLane (f1.mask &&& ~~~taken) then s1.nextId else s1.nextId + 1 } else l }

/-- State `t` is `s` after group `g` has exited by the unit of fragment `f` (06 R169): it has no fragment, and its registers are as they were;
results still on their way to them are kept until they return (06 R170); in Ephemeris mode its last quantum ends, and the fragment is kept for what
its release may report (17 R401).  It waits in no work queue. -/
structure Exits (s t : State) (g : Group) (f : Frag) : Prop where
  rest   : t = { s with groups := t.groups, parts := t.parts, dev := { s.dev with live := t.dev.live } }
  others : ∀ n, n ≠ g.id → t.group? n = s.group? n
  parts  : t.parts = s.parts.map fun p => { p with work := p.work.map fun w => { w with parked := w.parked.filter fun x => x.1 != g.id } }
  group  : t.group? g.id = some { g with
    frags := [], splits := [], handler := none, trapWait := none, turn := none, exited := g.logical.isNone || g.exited
    strays := g.strays ++ (g.frags.flatMap Frag.outs).filter fun o => !o.landed
    logical := (g.logical.map (countUnit 0 true f.pc f.id)).map fun l => { l with
      ended := true, leaver := some { f with pc := f.pc + 4, last := f.pc, outs := [], held := false, counted := false } } }

/-! ### What an event changes -/

/-- State `t` is `s` but for partition `p`, which is `x`. -/
structure PartBecomes (s t : State) (p : Nat) (x : Part) : Prop where
  rest   : t = { s with parts := t.parts }
  others : ∀ n, n ≠ p → t.part? n = s.part? n
  part   : t.part? p = some x

/-- State `t` is `s` but for group `n`, which is `x`. -/
structure GroupBecomes (s t : State) (n : Nat) (x : Group) : Prop where
  rest   : t = { s with groups := t.groups }
  others : ∀ m, m ≠ n → t.group? m = s.group? m
  group  : t.group? n = some x

/-- No partition, and nothing that belongs to one (20 R443). -/
def Bare (t : State) : Prop :=
  t.parts = [] ∧ t.grids = [] ∧ t.teams = [] ∧ t.groups = [] ∧ t.fifos = [] ∧ t.feeders = [] ∧ t.copies = [] ∧ t.mats = [] ∧ t.latches = [] ∧
  t.homes = [] ∧ t.flight = [] ∧ ∀ q ∈ t.dev.ports, q.up = false ∧ q.owner = none

/-- What outlives a reset of the device: the active image, the security counter and the signature counter (20 R455, R456), and the id of the
device in its fabric, until stage 4 assigns it anew (19 R429; DEDUCED, notes/assumptions/34.md); the image written for this reset, or one that an
earlier reset left unverified, is the one that stage 1 now verifies. -/
def Outlives (s t : State) : Prop :=
  t.dev.version = s.dev.version ∧ t.dev.digest = s.dev.digest ∧ t.dev.pending = none ∧ t.dev.security = s.dev.security ∧
  t.dev.sigIndex = s.dev.sigIndex ∧ t.dev.fabricId = s.dev.fabricId ∧
  t.dev.loading = match s.dev.pending with | some f => some f | none => s.dev.loading

/-- Every register of the units that a function covers stands in its snapshot with the value that it had (20 R453, R454). -/
def Latched (s t : State) (fn : Nat) : Prop :=
  ∀ kind unit reg, (kind, unit) ∈ snapUnits s fn → reg < snapRegs kind →
    (t.dev.latched.find? fun y => y.1 == (kind, unit, reg)).map Prod.snd = some (snapValue s kind unit reg)

/-- An event ends the wait of fragment `f` of group `g`, which can issue again, and changes nothing else. -/
def WaitOver (i : Instr) (s : State) (g : Group) (f : Frag) : Prop :=
  ∃ t g2, Machine.exec i s = .next t ∧ GroupBecomes s t g.id g2 ∧ g2 = { g with frags := g2.frags } ∧
    g2.frag? f.id = some { f with wait := none, ready := s.tick, promoted := none } ∧ ∀ n, n ≠ f.id → g2.frag? n = g.frag? n

/-! ### Placement (05 R122, R135) -/

/-- A gang register as Orrery writes it for group `j` of the team of rank `rank` in a set of `n` teams (05 R135). -/
structure GangWord (n rank j : Nat) (x : Dword) : Prop where
  alone  : n < 2 → x = 0
  size   : 2 ≤ n → x.extractLsb' 0 3 = BitVec.ofNat 3 n
  index  : 2 ≤ n → x.extractLsb' 3 3 = BitVec.ofNat 3 rank ∧ x.extractLsb' 6 2 = 0
  member : 2 ≤ n → ∀ m, m < 7 → x.extractLsb' (8 + 8 * m) 8 = if m < n then BitVec.ofNat 8 (32 * m + j) else 0

/-- Group `j` of a team that has been placed, whose gang register meets `gang` (03 R60; 05 R122, R135): one fragment of all lanes at the entry, the
registers zero, the allocation that the record asks for. -/
def StartsIn (t : State) (d : Grid) (team j : Nat) (gang : Dword → Prop) : Prop :=
  ∃ g f, g ∈ t.groups ∧ g.team = team ∧ g.num = j ∧ g.part = d.part ∧ g.role = .ordinary ∧ g.frags = [f] ∧
    g.v = [] ∧ g.s = [] ∧ g.p = [] ∧ g.acc = [] ∧ g.window = 0 ∧ g.granules = d.record.granules ∧ g.tiles = d.record.accTiles ∧ gang g.gang ∧
    f.mask = 0xFFFFFFFF#32 ∧ f.pc = d.record.entry

/-! ### Homes -/

/-- The new value of an integer element of `w` bits (12 R309). -/
def elementAfter {w : Nat} (op : Nat) (signed : Bool) (x y z : BitVec w) : BitVec w :=
  match op with
  | 0 => x + y
  | 1 => if signed then (if x.toInt ≤ y.toInt then x else y) else if x ≤ y then x else y
  | 2 => if signed then (if y.toInt ≤ x.toInt then x else y) else if y ≤ x then x else y
  | 3 => x &&& y
  | 4 => x ||| y
  | 5 => x ^^^ y
  | 6 => y
  | 7 => if x = y then z else x
  | 8 => if y ≤ x then 0 else x + 1
  | 9 => if x = 0 ∨ y < x then y else x - 1
  | 10 => if x < y then y else x
  | _ => x

/-- A method of the pool table is next at a home, for one request (10 R270): the batch that comes first holds it, its object is bound as a
pool, the home waits on no page, and what it holds of the pools is this batch's. -/
structure PoolTurn (s : State) (home m : Nat) (b : Bin) (x : Binding) (r : Request) : Prop where
  first : firstPool s home = some b
  ask   : ∃ id : BitVec 7, b.ask = .method id ∧ id.toNat = m
  bound : bindingOf s home b.obj = some x
  go    : homeResume s home b.num = .go
  one   : b.reqs = [r]

/-- The home after a pool batch: the bin is gone, the batch is counted, its pause is over, and so is what it held of the pools. -/
def poolDone (s : State) (home : Nat) (b : Bin) : State := (takeBin (homeGo (endPool s home) home b.num) home b.num).count 3 home 1 1

/-- A pool batch that has come to state `s1`: where it has written a pool that it has not read in an access of its own, it makes that access now,
and nothing else, unless another batch of its home is updating a pool; else it is done, and its replies are sent (19 R436; DEDUCED,
notes/assumptions/96.md). -/
def PoolEnds (i : Instr) (s : State) (home : Nat) (b : Bin) (s1 : State) (reply : State → State) : Prop :=
  (poolReads s1 home = true → poolBusy s home none (some b.num) = false → Machine.exec i s = .next (readPools s home b.num)) ∧
  (poolReads s1 home = true → poolBusy s home none (some b.num) = true → Machine.exec i s = .next s) ∧
  (poolReads s1 home = false → Machine.exec i s = .next (reply (poolDone s1 home b)))

/-! ### Engines -/

/-- The head of a feeder is feed `x`, whose partition works, whose handle is `h`, which nothing before it holds back, no command and no atomic, and
someone consumes. -/
structure FeedTurn (s : State) (core n : Nat) (q : Feeder) (x : Feed) (h : Handle) : Prop where
  feeder : feeder? s core n = some q
  head   : q.items.head? = some (.cmd x)
  pause  : q.pause = none
  works  : partWorks s x.rights.part = true
  handle : (s.group? x.group).bind (fun g => g.handle? x.handle) = some h
  waits  : feedWaits s core x = false
  orphan : feedOrphan s core x = false
  after  : q.running = none → atomicsBefore s x.group x.quantum = false

/-- The units of a write-back, one after another: each takes the code and the scale byte of its tile positions as they stand (10 R257, R258; 08
R233). -/
def BackDone (e : EngCtx) (r : Shape) (read : State → Nat → Nat → Nat × Nat) : List (List (List Nat × (Nat × Nat))) → State → State → Prop
  | [], s, t => t = s
  | u :: rest, s, t => ∃ s1,
    writeUnit s e r (u.map fun y => (y.1, some (read s y.2.1 y.2.2).2, (read s y.2.1 y.2.2).1)) = .ok s1 ∧ BackDone e r read rest s1 t

/-- The head of a copy queue is command `c`, well formed and of a kind; `k` units of it are done, none before it has begun, when no atomic before it
is still to be performed (10 R263, R266; 13 R326). -/
structure CopyTurn (s : State) (p q : Nat) (x : CopyQueue) (c : CopyCmd) (kind : Nat) (k : Option Nat) : Prop where
  queue : copyQ? s p q = some x
  head  : x.items.head? = some (.cmd c)
  pause : x.pause = none
  units : x.running = k
  works : partWorks s p = true
  plain : c.coll = false
  kind  : (parseCopy c.bytes).kind = kind
  ok    : (parseCopy c.bytes).ok = true
  after : x.heldBack s c = false

/-- What one unit of a copy command writes, by kind, from what its source positions hold (10 R264, R251): FILL writes the pad, CONVERT the value
in the destination format, the others the code as it stands, with its stored scale, and the source's pad where a position is synthesised. -/
def unitCodes (w : CopyWords) (a b : Shape) (vs : List (Option (Nat × Nat))) : List (Option Nat × Nat) :=
  match w.kind with
  | 6 => convertUnit w a b vs
  | _ => vs.map fun v => match v with | some (code, k) => (some k, code) | none => (none, a.padRead)

/-- One unit of a command: it reads its source positions and then writes its destination (08 R233; 10 R264).  FILL reads nothing; SCATRED
combines each element with what memory holds, and in a pool with what an access before has found there (19 R436); TRANSPOSE does not round what it reads (18 R420); an e8 destination that is no plane takes one
position at a time, and at the first of a block the block's scale. -/
def UnitDone (e : EngCtx) (w : CopyWords) (a0 b : Shape) (ai : List (Nat × Option Nat)) (u : CopyUnit) (found : Option Nat) (s t : State) : Prop :=
  let a := if w.kind = 5 then { a0 with rne := false } else a0
  if w.kind = 4 then
    ∃ i p s1 v s2 addr na s3 l, u.1 = [(i, p)] ∧ readPos s e a ai p.1 p.2 = .ok (s1, v) ∧ elemAddr s1 e b i = .ok (s2, addr, na) ∧
        engLoc s2 e .update addr (b.elem.bits / 8) = .ok (s3, l) ∧ (l.pooled = true → found.isSome = true) ∧
        t = engPut s3 e l (bytesOfNat (b.elem.bits / 8)
          (combineCode w.op b.elem (found.getD (natOfBytes (readLocs s3 e.view l (b.elem.bits / 8)))) (match v with | some y => y.1 | none => a.padRead)))
  else if b.byPosition then ∃ i p, u.1 = [(i, p)] ∧ copyPosition s e w a b ai i p u.2 = .ok t
  else if w.kind = 7 then writeUnit s e b (u.1.map fun x => (x.1, none, b.padRead)) = .ok t
  else ∃ s1 vs, readMany e a ai (u.1.map Prod.snd) s = .ok (s1, vs) ∧
    writeUnit s1 e b (List.zip (u.1.map Prod.fst) (unitCodes w a b vs)) = .ok t

/-- The units of a command, one after another, the first with what an access of a pool has found for it. -/
def UnitsDone (e : EngCtx) (w : CopyWords) (a b : Shape) (ai : List (Nat × Option Nat)) : Option Nat → List CopyUnit → State → State → Prop
  | _, [], s, t => t = s
  | found, u :: rest, s, t => ∃ s1, UnitDone e w a b ai u found s s1 ∧ UnitsDone e w a b ai none rest s1 t

/-- The events of the copy engines that perform a command unit by unit, by kind (10 R264). -/
def UnitCopy (p q kind : Nat) (i : Instr) : Prop :=
  (kind, i) ∈ [(1, Instr.copy p q), (2, .gather p q), (3, .scatter p q), (4, .scatred p q), (5, .transpose p q), (6, .convert p q),
    (7, .fillCommand p q), (8, .pad p q)]

/-- Bits of the destination that some units of a command write (10 R266). -/
def bitsOfUnits (b : Shape) (us : List CopyUnit) : Nat := b.elem.bits * (us.map fun u => u.1.length).sum

/-- A command that has come to the end of its `n`-th unit, the last one or the last before a boundary of its destination (10 R264, R266). -/
def CopyStops (i : Instr) (s t : State) (p q : Nat) (c : CopyCmd) (us : List CopyUnit) (sb db : List Byte) (ai bi : List (Nat × Option Nat))
    (n : Nat) : Prop :=
  (us.length ≤ n → (∀ y, copyQ? t p q = some y → y.wire = []) → Machine.exec i s = .next (endCopy t p q c 0)) ∧
  (n < us.length → Machine.exec i s = .next (modCopyQ t p q fun y => { y with
    running := some n, src := sb, dst := db, srcIdx := ai, dstIdx := bi, pause := none }))

/-- A matrix command that its engine can perform: the first of its group, of no joint form, not failed, with every feed that it waits for
complete and every tile that it consumes taken; the engine has begun it, or it begins next (14 R342, R347). -/
structure MatrixTurn (s : State) (core : Nat) (g : Group) (c : MatCmd) : Prop where
  group : s.group? g.id = some g
  next  : nextCmd s core g.id = some c
  mine  : c.group = g.id
  only  : cmd? s c.id = some c
  works : partWorks s (partOfCore s core) = true
  turn  : c.started = true ∨ beginsNext s core c = true
  single : c.joint = none
  open_ : c.latched = false
  fills : fillsDone s core c = true
  whole : c.failed = none
  tilesA : c.tilesA ≤ c.aTiles.length
  tilesB : c.tilesB ≤ c.bTiles.length

/-- The same of a joint command that its engine has begun: its latch is open, and every member has all its tiles and has not failed (14 R351,
R352). -/
structure JointTurn (s : State) (core : Nat) (g : Group) (c : MatCmd) : Prop where
  group : s.group? g.id = some g
  next  : nextCmd s core g.id = some c
  mine  : c.group = g.id
  only  : cmd? s c.id = some c
  works : partWorks s (partOfCore s core) = true
  begun : c.started = true
  joint : c.joint.isSome = true
  open_ : c.latched = false
  fills : fillsDone s core c = true
  here  : c ∈ jointMembers s c
  whole : ∀ m ∈ jointMembers s c, m.kind = .mma ∧ m.failed = none ∧ m.tilesA ≤ m.aTiles.length ∧ m.tilesB ≤ m.bTiles.length
  apart : ∀ m ∈ jointMembers s c, ∀ n ∈ jointMembers s c, (m.id = n.id ∨ m.group = n.group) → m = n
  alike : ∀ m ∈ jointMembers s c, jointMembers s m = jointMembers s c
  groups : ∀ m ∈ jointMembers s c, (s.group? m.group).isSome = true

/-- The command has left the queues, and of the groups only `g` has changed, in its accumulators. -/
structure MatrixDone (s t : State) (g g2 : Group) (c : MatCmd) : Prop where
  rest   : t = { s with groups := t.groups, mats := t.mats, dev := { s.dev with live := t.dev.live } }
  group  : t.group? g.id = some g2
  others : ∀ n, n ≠ g.id → t.group? n = s.group? n
  frame  : g2 = { g with acc := g2.acc }
  gone   : ∀ q ∈ t.mats, ∀ x ∈ q.cmds, x.id ≠ c.id

/-- The words of accumulator tiles outside some are as they were. -/
def AccKept (g g2 : Group) (tiles : List (Nat × Nat)) : Prop :=
  ∀ k row col, row < 32 → col < 32 → (∀ x ∈ tiles, k < x.1 ∨ x.1 + x.2 ≤ k) → g2.getAcc k row col = g.getAcc k row col

/-- The command has left the queues, and the slice of its team has taken some bytes; memory and the other slices are as they were, and groups but
for what they wait for. -/
structure MatrixStored (s t : State) (g : Group) (c : MatCmd) (write : Nat → Option Byte) : Prop where
  mem    : t.mem = s.mem
  slice  : ∀ o, readLoc t {} (.slice g.team o) = (write o).getD (readLoc s {} (.slice g.team o))
  teams  : ∀ n, n ≠ g.team → t.team? n = s.team? n
  groups : ∀ n x, s.group? n = some x → ∃ y, t.group? n = some y ∧ y = { x with frags := y.frags, logical := y.logical }
  gone   : ∀ q ∈ t.mats, ∀ x ∈ q.cmds, x.id ≠ c.id

/-! ### What the matrix commands compute (14 R345, R355 to R359; 15 R369, R373 to R375) -/

/-- Whether a command admits element (r, k), and whether row r has no admitted element (15 R364, R368, R369). -/
def admits? (c : MatCmd) (as : List StreamTile) (r k : Nat) : Bool := admitted c (decisions c as c.bTiles) as c.bTiles r k
def rowEmpty (c : MatCmd) (as : List StreamTile) (r : Nat) : Bool := !((List.range (cwN c.word)).any (admits? c as r))

/-- The accumulation over K of row r of A and column k of B into a value, of a type and chunk by chunk (14 R355). -/
def overK (s : State) (c : MatCmd) (as : List StreamTile) (type chunk r k acc : Nat) : Nat :=
  let F := cmdElem s c
  let av := (as.map (tileNums (cmdSlot s c) F c.px.nega)).toArray
  let bv := (c.bTiles.map (tileNums (cmdSlot s c) F c.px.negb)).toArray
  accumulate type chunk (cwK c.word) (opA c.word av r) (fun x => opB c.word bv x k) acc

/-- An element of an MMA: from what it held, or from 0 with nacc (14 R355). -/
def mmaSum (s : State) (c : MatCmd) (as : List StreamTile) (g : Group) (r k : Nat) : Nat :=
  overK s c as (cwType c.word) (chunkOf (cmdElem s c) (slotScale (cmdSlot s c))).1 r k
    (if c.px.nacc then 0 else accGet g c.word (cwBase c.word) r k)

/-- The value of an element of MMAS: its sum from 0, scaled by SMSCALE (15 R373). -/
def mmasScore (s : State) (c : MatCmd) (as : List StreamTile) (r k : Nat) : Word :=
  let ch := chunkOf (cmdElem s c) (slotScale (cmdSlot s c))
  f32OfNum (Num.mul (numOfF32 (BitVec.ofNat 32 (overK s c as ch.2 ch.1 r k 0))) (numOfF32 c.smscale))

/-- An element of an MMAP: the first chunk of 32 with what the output held, scaled by the row's corr, then the others (15 R375). -/
def mmapSum (s : State) (c : MatCmd) (g : Group) (r k : Nat) : Nat :=
  let pt := (pTiles c.word c.aux).1 + (pTiles c.word c.aux).2
  let bv := (c.bTiles.map (tileNums (cmdSlot s c) (cmdElem s c) false)).toArray
  let v := fun (x : Nat) => opB c.word bv x k
  let held := if c.px.nacc then Num.zero false
    else Num.mul (numOfF32 (BitVec.ofNat 32 (accGet g c.word (cwBase c.word) r k))) (numOfF32 (statGet g pt r 2))
  let first := fmtF32.encode 0 false (Num.add false held (chunkSum (pElem g c.word c.aux r) v 0 32))
  (List.range (cwK c.word / 32 - 1)).foldl (fun acc q => addChunk 0 acc (chunkSum (pElem g c.word c.aux r) v (32 * (q + 1)) 32)) first

/-- A statistics tile `t` after a command on rows below `m`: its fields are `val`, the skip count is `skip`, rows beyond `m` are as they were, and
every word that is no field is zero (14 R345). -/
structure StatDone (g g2 : Group) (t m : Nat) (val : Nat → Nat → Word) (skip : Word) : Prop where
  rows : ∀ r f, r < m → f < 4 → statGet g2 t r f = val r f
  past : ∀ r f, m ≤ r → r < 128 → f < 4 → statGet g2 t r f = statGet g t r f
  skip : skipGet g2 t = skip
  zero : ∀ row col, row < 32 → 16 ≤ col → col < 32 → ¬(row = 0 ∧ col = 16) → g2.getAcc t row col = 0

/-- The statistics of a row as a sweep finds them: of its start with nacc, else what they are (14 R345). -/
def statOld (c : MatCmd) (g : Group) (t r f : Nat) : Word :=
  if c.px.nacc then (match f with | 0 => 0xFF800000#32 | 1 => 0 | 2 => 0x3F800000#32 | _ => 0) else statGet g t r f

/-- The skip count after a command: the tiles skipped, counted from 0 with nacc (14 R345, 15 R369). -/
def skipNew (c : MatCmd) (as : List StreamTile) (g : Group) (t : Nat) : Word :=
  (if c.px.nacc then 0 else skipGet g t) + BitVec.ofNat 32 (skippedTiles (decisions c as c.bTiles))

/-- An MMA on its group, with the tiles of A (14 R355, 15 R369). -/
structure MmaDone (s : State) (c : MatCmd) (as : List StreamTile) (g g2 : Group) : Prop where
  sums     : ∀ r k, r < cwM c.word → k < cwN c.word → admits? c as r k = true →
    accGet g2 c.word (cwBase c.word) r k = mmaSum s c as g r k % 2 ^ (if cwType c.word = 1 then 64 else 32)
  rejected : ∀ r k, r < cwM c.word → k < cwN c.word → admits? c as r k = false → accGet g2 c.word (cwBase c.word) r k =
    (if c.px.nacc then c.rel.bind fun x => rejectCode x (cwType c.word) (rowEmpty c as r) else none).getD (accGet g c.word (cwBase c.word) r k)
  stats    : c.rel.isSome = true → StatDone g g2 (cwBase c.word + cwTiles c.word) (cwM c.word)
    (fun r f => if f = 3 then (if rowEmpty c as r then 1 else 0) else statOld c g (cwBase c.word + cwTiles c.word) r f)
    (skipNew c as g (cwBase c.word + cwTiles c.word))
  kept     : AccKept g g2 [(cwBase c.word, cwTiles c.word + if c.rel.isSome then 1 else 0)]

/-- An MMAS on its group: row by row the probabilities of the admitted columns, +0 elsewhere, and the row's statistics (15 R373, R374). -/
structure MmasDone (s : State) (c : MatCmd) (as : List StreamTile) (g g2 : Group) (row : Nat → Word × Word × Word × Word × List (Nat × Num)) : Prop where
  rows  : ∀ r, r < cwM c.word → row r = mmasRow (((List.range (cwN c.word)).filter (admits? c as r)).map fun k => (k, mmasScore s c as r k))
    (statOld c g (cwBase c.word + cwTiles c.word) r 0) (statOld c g (cwBase c.word + cwTiles c.word) r 1)
  probs : ∀ r k, r < cwM c.word → k < cwN c.word → accGet g2 c.word (cwBase c.word) r k =
    match (row r).2.2.2.2.find? fun p => p.1 == k with | none => 0 | some p => (f32OfNum p.2).toNat
  stats : StatDone g g2 (cwBase c.word + cwTiles c.word) (cwM c.word)
    (fun r f => match f with | 0 => (row r).1 | 1 => (row r).2.1 | 2 => (row r).2.2.1 | _ => (row r).2.2.2.1)
    (skipNew c as g (cwBase c.word + cwTiles c.word))
  kept  : AccKept g g2 [(cwBase c.word, cwTiles c.word + 1)]

/-- An MMAP on its group: the sums, and the statistics of the P tiles with the empty flags joined (15 R375). -/
structure MmapDone (s : State) (c : MatCmd) (g g2 : Group) (pt : Nat) : Prop where
  sums  : ∀ r k, r < cwM c.word → k < cwN c.word → accGet g2 c.word (cwBase c.word) r k = mmapSum s c g r k % 2 ^ 32
  stats : StatDone g g2 (cwBase c.word + cwTiles c.word) (cwM c.word)
    (fun r f => if f = 3 then
        (if c.px.nacc then statGet g pt r 3 &&& 1 else statGet g (cwBase c.word + cwTiles c.word) r 3 &&& (statGet g pt r 3 &&& 1))
      else statGet g pt r f)
    (skipGet g pt)
  kept  : AccKept g g2 [(cwBase c.word, cwTiles c.word + 1)]

/-- The data of the tile that an MTR writes: each output element with its bias and activation, converted as rq asks, in e8 form block by block
(14 R356, R358; 04 R109, R110). -/
def mtrData (s : State) (c : MatCmd) (g : Group) (h : Handle) (bias : Nat → Num) : List Byte :=
  let w := c.word
  let f := (elemOf (h.format.setWidth 6)).getD (.float fmtF32)
  let code := fun (r k : Nat) => accGet g w (cwBase w) r k
  let num := fun (r k : Nat) => mtrStage s (cmdView s c g) c g.team bias (code r k) k
  let nb := cwN w / 32
  let block := fun (b : Nat) => quantBlock f 0 ((List.range 1024).map fun k => num (32 * (b / nb) + k / 32) (32 * (b % nb) + k % 32))
  if c.px.rq && slotScale (cmdSlot s c) == 1 then
    tileData f h.swizzle.toNat (cwM w) (cwN w)
      (fun r k => ((block ((r / 32) * nb + k / 32)).2.map (slotFlush (cmdSlot s c) f)).getD (32 * (r % 32) + k % 32) 0) (some fun b => (block b).1)
  else tileData f h.swizzle.toNat (cwM w) (cwN w) (fun r k => mtrCode c (cmdSlot s c) f (code r k) (num r k)) none

/-- The header of that tile: the batch, the format and the swizzle, M and N; no labels, at row and column 0 (10 R255, 14 R356). -/
def mtrHeader (c : MatCmd) (h : Handle) : List Byte :=
  bytesOfNat 2 (c.batch.toNat % 2 ^ 16) ++ [(h.format.setWidth 6).setWidth 8, BitVec.ofNat 8 h.swizzle.toNat] ++
    bytesOfNat 2 (cwM c.word) ++ bytesOfNat 2 (cwN c.word) ++ bytesOfNat 8 0

/-- Bytes at an offset. -/
def bytesAt (base : Nat) (bs : List Byte) (o : Nat) : Option Byte := if base ≤ o then bs[o - base]? else none

/-- The team of a group outside a running phase, its slice in order. -/
structure SliceOpen (s : State) (g : Group) : Prop where
  team  : ∃ x, s.team? g.team = some x ∧ x.slice.Pairwise (fun a b => a.1 < b.1) ∧ (s.grid? x.grid).any (fun d => d.phase.isSome) = false

end Sys2Proof.Machine
end

