-- ==== Sys2Proof/Certificates/Slice0/Obligations.lean ====
section
/-!
DEFINITION. The statements of this model for the provers.
-/

open Sys2Proof Sys2Proof.Machine

/-! ### Instructions of a fragment, by what they do -/

/-- The scalar instructions, and PTOS and PPOPC (06 R173 to R175, R177, R178, R180), and SSETP, VSETP and the predicate instructions (06 R176, R180;
07 R192): their results, and that nothing else changes but what the end of a unit changes. -/
def Obligations.ScalarResults : Prop :=
  ∀ i s g f r, (scalarRow g f i = some r ∨ predRow g f i = some r) → Issues s g f → Clear g f r.vs r.ss →
    Completes i s g f r.words (s.setGroup r.after)

/-- The vector integer, lane and shuffle instructions (07 R185 to R195, R202, R203), and those on f64, f32, bf16 and f16 (07 R196 to R200): their
lanes, and that nothing else changes but what the end of a unit changes. -/
def Obligations.VectorResults : Prop :=
  ∀ i s g f r, (vectorRow g f i = some r ∨ floatRow g f i = some r) → Issues s g f → Clear g f r.vs r.ss →
    Completes i s g f r.words (s.setGroup r.after)

/-- The narrow format instructions (09 R236 to R253) on formats that their slots hold. -/
def Obligations.NarrowResults : Prop :=
  ∀ i s g f r, narrowRow s g f i = some r → Issues s g f → Clear g f r.vs r.ss → Completes i s g f r.words (s.setGroup r.after)

/-- System registers, the window base, the trap record, the pending join, batches and the loss scale (03 R63; 06 R164, R171, R172, R179;
14 R353; 16 R383; 18 R419; 20 R450). -/
def Obligations.SystemResults : Prop :=
  ∀ i s g f e, systemDeed s g f i = some e → Issues s g f → e.Ready s g f → e.Happens i s g f

/-- Branches, calls and returns whose lanes go one way (06 R161 to R163). -/
def Obligations.BranchResults : Prop :=
  ∀ i s g f e, branchDeed s g f i = some e → Issues s g f → e.Ready s g f → e.Happens i s g f

/-- RGN of both kinds: the region that begins and the staged registers (06 R165, R166). -/
def Obligations.RegionResults : Prop :=
  ∀ i s g f e, regionDeed s g f i = some e → Issues s g f → e.Ready s g f → e.Happens i s g f

/-- The special functions, the reductions and scans, and RNGC: an outstanding result with its window and its words (03 R81; 07 R201, R204 to
R207; 09 R248).  Which numbers the special functions give within their bounds is the model's choice (DESIGN CHOICE, notes/assumptions/10.md;
DEDUCED, notes/assumptions/18.md), and so is that a reduction's leaves are made canonical (DEDUCED, notes/assumptions/19.md). -/
def Obligations.LongResults : Prop :=
  ∀ i s g f e, resultDeed s g f i = some e → Issues s g f → e.Ready s g f → e.Happens i s g f

/-- LD and LDS: an outstanding result with the bytes at each lane's address (08 R225, R226, R230). -/
def Obligations.LoadResults : Prop :=
  ∀ i s g f e, loadsDeed s g f i = some e → Issues s g f → e.Ready s g f → e.Happens i s g f

/-- ST and STS: what is stored, and where (08 R227, R230); a release store orders its stream before itself (13 R327). -/
def Obligations.StoreResults : Prop :=
  ∀ i s g f e, storesDeed s g f i = some e → Issues s g f → e.Ready s g f → e.Happens i s g f

/-- PLD and PST (08 R231, R232), and PADDC: the flags as a result, and the new planes and scale as the commit that comes before the result
lands (18 R412 to R415); in Ephemeris mode they are held with the group's other effects (18 R417). -/
def Obligations.PlaneResults : Prop :=
  ∀ i s g f e, (planesDeed s g f i = some e ∨ planeAddDeed s g f i = some e) → Issues s g f → e.Ready s g f → e.Happens i s g f

/-- ATOM, RED, OBJCALL and OBJPOST send one request for each active lane, OBJBIND and OBJUNBIND one for the fragment (11 R285, R305, R306; 12 R309
to R311).  That the source id of the fragment's one request is that of lane 0 is the model's choice (DESIGN CHOICE, notes/assumptions/105.md). -/
def Obligations.RequestResults : Prop :=
  ∀ i s g f e, requestDeed s g f i = some e → Issues s g f → e.Ready s g f → e.Happens i s g f

/-- The barrier instructions and WAITV: an arrival, a word set up, a fragment that goes on or waits (12 R316 to R321, 17 R405); and the fences (13
R335): with what they wait for done, they join the streams of their mask, and leave everything else as it is, for every other access is performed
already (DESIGN CHOICE, notes/assumptions/6.md). -/
def Obligations.OrderingResults : Prop :=
  ∀ i s g f e, (barrierDeed s g f i = some e ∨ fenceDeed s g f i = some e) → Issues s g f → e.Ready s g f → e.Happens i s g f

/-- DEQ, DEQT, ENQ, LAUNCH, LAUNCHI, CWAIT and GANGSET (05 R137 to R144; in Ephemeris mode ENQ in logical order, 17 R406).  That
GANGSET drops the group's failed latches is the model's reading (DEDUCED, notes/assumptions/61.md), and so is the status of a launch queue that is
not set up (DEDUCED, notes/assumptions/62.md) and when the region of a DEQ ends (DEDUCED, notes/assumptions/91.md). -/
def Obligations.QueueResults : Prop :=
  ∀ i s g f e, queueDeed s g f i = some e → Issues s g f → e.Ready s g f → e.Happens i s g f

/-- HBIND, FEED, FEED.WB, CPY, COLL, QFENCE and QWAIT (10 R254, R262, R274 to R278; 19 R438).  That HBIND waits for an exited group's FIFO, which is
still at work, is the model's reading (DEDUCED, notes/assumptions/84.md), and so is the logical turn that a number of a queue waits for in
Ephemeris mode (DEDUCED, notes/assumptions/85.md). -/
def Obligations.EngineResults : Prop :=
  ∀ i s g f e, engineDeed s g f i = some e → Issues s g f → e.Ready s g f → e.Happens i s g f

/-- The matrix commands: what enters the matrix queue, and nothing where the guard is false in every lane (03 R78; 14 R342 to R352, R355 to R360;
15 R372 to R375); and MSTAT, MWAIT and MLBL (14 R354, R360; 15 R371).  That MSTAT takes none of the queue's entries, and what MMAS and
MMAP ask of their slot, is the model's reading (DEDUCED, notes/assumptions/66.md; DEDUCED, notes/assumptions/67.md). -/
def Obligations.MatrixResults : Prop :=
  ∀ i s g f e, (matrixDeed s g f i = some e ∨ matrixReadDeed s g f i = some e) → Issues s g f → e.Ready s g f → e.Happens i s g f

/-- BRA and CALL whose lanes divide in the default mode: the fragment splits (06 R156, R161). -/
def Obligations.DivergentBranch : Prop :=
  ∀ s g f p n o, Issues s g f → p ≠ 0 → takes g f p n ≠ 0 → takes g f p n ≠ f.mask →
    (Clear g f [] [] → ∃ s1 t, Machine.exec (.bra p n 0 o) s = .next t ∧ UnitEnds {} s s s1 g f (f.pc + 4) ∧
      Splits s1 t g f (takes g f p n) (offsetFrom f.pc o)) ∧
    (Clear g f [] [63] → ∃ s1 t, Machine.exec (.call p n 0 o) s = .next t ∧
      UnitEnds {} s (s.setGroup (g.setS 63 (lowWord (f.pc + 4)))) s1 g f (f.pc + 4) ∧ Splits s1 t g f (takes g f p n) (offsetFrom f.pc o))

/-- EXIT retires the group, and changes nothing else (06 R169): results that are still on their way are kept until they return (06 R170).  That in
Ephemeris mode the group stays until the release of its last quantum, and keeps the fragment that issued EXIT until then, is the model's reading of
17 R403 (DEDUCED, notes/assumptions/90.md). -/
def Obligations.ExitRetires : Prop :=
  ∀ s g f, Issues s g f → ClearPath g f [] [] → Plain g → ∃ t, Machine.exec .exit s = .next t ∧ Exits s t g f

/-- TRAP, BRK and an undefined encoding take their trap: the record is written and the handler starts (03 R84; 16 R379, R380, R384).  TRAP and
BRK trap after their unit, which ends; an undefined encoding has no effect, and is where the handler returns to.  That the handler runs as a
fragment of its own, and that the windows of the held fragments' results close, is the model's reading (DEDUCED, notes/assumptions/30.md). -/
def Obligations.TrapsStartHandler : Prop :=
  ∀ s g f d, Issues s g f → Plain g → g.trapWait = none → AllLanded g → s.gridOf g = some d → d.record.vector ≠ 0 →
    (∀ k, ClearPath g f [] [] → ∃ s1 t, Machine.exec (.trap k) s = .next t ∧ UnitEnds { path := true } s s s1 g f (f.pc + 4) ∧
      HandlerStarts s1 t g f 0x0E (k.setWidth 64) f.pc (f.pc + 4) 0 d.record.vector) ∧
    (∀ k, ClearPath g f [] [] → ∃ s1 t, Machine.exec (.brk k) s = .next t ∧ UnitEnds { path := true } s s s1 g f (f.pc + 4) ∧
      HandlerStarts s1 t g f 0x0F (k.setWidth 64) f.pc (f.pc + 4) 0 d.record.vector) ∧
    ∃ t, Machine.exec .undefinedEncoding s = .next t ∧ HandlerStarts s t g f 0x01 0 f.pc f.pc 1 d.record.vector

/-- TRET in its three modes returns from the handler (16 R385).  That the handler ran as a fragment of its own, whose held fragments come back, is
the model's reading (DEDUCED, notes/assumptions/30.md). -/
def Obligations.TrapReturns : Prop :=
  ∀ s g f h, Issues s g f → AllLanded g → g.handler = some h → f.mask = h.mask → (∀ x ∈ g.frags, x.pending = []) → stopPending s g = false →
    (ClearPath g f [] [] → ∃ t, Machine.exec .tret s = .next t ∧ Returns .resume s t g f h) ∧
    (ClearPath g f [] [] → ∃ t, Machine.exec .tretRegion s = .next t ∧ Returns .region s t g f h) ∧
    ∀ a : BitVec 5, ClearPath g f [] [2 * a.toNat, 2 * a.toNat + 1] → (g.getPair (2 * a.toNat)).toNat % 4 = 0 →
      ∃ t, Machine.exec (.tretAddr a) s = .next t ∧ Returns (.addr (g.getPair (2 * a.toNat))) s t g f h

/-- CRET and CABORT end the batch of their service group (11 R293, R295): CRET performs what the batch stored and sends what it posted, and
replies a value and a status to each request by its lane; CABORT replies statuses alone, and memory is as it was when every request awaits
its reply.  The batch and its group are gone.  Where the stores cover words of a pool in part, CRET first reads them, in an access of its own, and
is issued again; a CRET that stores to a pool waits while another batch of its home is updating one (19 R436; DEDUCED, notes/assumptions/96.md). -/
def Obligations.MethodEnds : Prop :=
  ∀ s g f h sg b, Issues s g f → g.role = .service h sg → batchOf s g = some b → f.mask = maskOf (List.range b.bin.reqs.length) →
    (∀ d a, ClearPath g f [g.abs d, g.abs a] [] → (∀ i < b.bin.reqs.length, (g.getV (g.abs a) i &&& 0xFF#32).toNat < 0xF0) →
      (b.pooled = true → poolBusy s h (some sg) none = true → ∃ t, Machine.exec (.cret d a) s = .next t ∧ t.mem = s.mem ∧ t.homes = s.homes ∧
        t.flight = s.flight) ∧
      ((b.pooled = true → poolBusy s h (some sg) none = false) → b.found = none → pooledWords s b ≠ [] → Machine.exec (.cret d a) s = .next (s.modHome h fun x =>
        { x with batches := x.batches.map fun y => if y.sg = sg then { y with found := some (pooledWords s b) } else y })) ∧
      ((b.pooled = true → poolBusy s h (some sg) none = false) → (b.found.isSome = true ∨ pooledWords s b = []) → ∃ t, Machine.exec (.cret d a) s = .next t ∧
        t = dropBatch (replyLanes (commitBatch s (partOfHome s h) b h) (partOfHome s h) b.bin.reqs (fun i => g.getV (g.abs d) i)
          (fun i => g.getV (g.abs a) i &&& 0xFF#32)) h sg ∧
        (∀ x, t.home? h = some x → ∀ y ∈ x.batches, y.sg ≠ sg) ∧ ∀ x ∈ t.groups, x.role ≠ .service h sg)) ∧
    ∀ a, ClearPath g f [g.abs a] [] →
      (∀ i < b.bin.reqs.length, 0 < (g.getV (g.abs a) i &&& 0xFF#32).toNat ∧ (g.getV (g.abs a) i &&& 0xFF#32).toNat < 0xF0) →
      ∃ t, Machine.exec (.cabort a) s = .next t ∧
        t = dropBatch (replyLanes s (partOfHome s h) b.bin.reqs (fun _ => 0) (fun i => g.getV (g.abs a) i &&& 0xFF#32)) h sg ∧
        (∀ x, t.home? h = some x → ∀ y ∈ x.batches, y.sg ≠ sg) ∧ (∀ x ∈ t.groups, x.role ≠ .service h sg) ∧
        ((∀ r ∈ b.bin.reqs, r.reply.isSome = true) → t.mem = s.mem)

/-! ### Events of the device -/

/-- A reset of the device by power or by its function, and the loss of power (20 R443, R455, R456): no partition, grid, team, group, unit or
request is left, every port is down and unassigned, bring-up is at stage 1; the image written for this reset, the security counter and the
signature counter outlive it.  Power-on finds the HBM stacks lost; the function's reset leaves memory to stage 2.  That tier 0 reads 0 from the loss
of power on, before stage 2 has written it, is the model's choice (DESIGN CHOICE, notes/assumptions/2.md), and so are the reset values that no
rule gives (notes/assumptions/1.md). -/
def Obligations.DeviceResets : Prop :=
  ∀ s,
    (∃ t, Machine.exec .powerOnReset s = .next t ∧ Bare t ∧ Outlives s t ∧ t.dev.powered = true ∧ t.dev.stage = 1 ∧
      (memoryOk s → ∀ a, readKey t a = if a < 2 ^ 58 then 0 else readKey s a)) ∧
    (s.dev.powered = true → ∃ t, Machine.exec .deviceFunctionReset s = .next t ∧ Bare t ∧ Outlives s t ∧ t.dev.powered = true ∧ t.dev.stage = 1 ∧
      t.mem = s.mem) ∧
    ∃ t, Machine.exec .powerLoss s = .next t ∧ Bare t ∧ Outlives s t ∧ t.dev.powered = false ∧
      (memoryOk s → ∀ a, readKey t a = if a < 2 ^ 58 then 0 else readKey s a)

/-- The stages of bring-up, firmware and attestation (20 R443, R455, R456): stage 1 ends with the image for this reset activated, whose version
the security counter takes, or stays with its cause; stage 2 zeroes tier 0; stage 3 ends with every port down and unassigned, and the device's id
in its fabric domain assigned (19 R429; DEDUCED, notes/assumptions/34.md); an update is kept for the next reset; a quote uses the next signature
index, which advances, and none is left after 2^20.  That an image which is not signed or too old is refused at its write already is the
model's reading (DEDUCED, notes/assumptions/52.md); what the index field of a refused quote holds is a free value (DESIGN CHOICE,
notes/assumptions/53.md). -/
def Obligations.BringUp : Prop :=
  ∀ s, s.dev.powered = true →
    (∀ c n, s.dev.stage = 1 → s.dev.loading = none →
      Machine.exec (.bringUpStageAdvance true ⟨c, n⟩) s = .next { s with dev := { s.dev with stage := 2, failCause := 0 } }) ∧
    (∀ c n f, s.dev.stage = 1 → s.dev.loading = some f → f.signed = true → s.dev.security.toNat ≤ f.version.toNat →
      Machine.exec (.bringUpStageAdvance true ⟨c, n⟩) s = .next { s with dev := { s.dev with
        stage := 2, failCause := 0, version := f.version, digest := f.digest, loading := none, security := f.version } }) ∧
    (∀ c n f, s.dev.stage = 1 → s.dev.loading = some f → (f.signed = false ∨ f.version.toNat < s.dev.security.toNat) →
      Machine.exec (.bringUpStageAdvance true ⟨c, n⟩) s = .next { s with dev := { s.dev with failCause := c } }) ∧
    (∀ c n, (s.dev.stage = 1 ∨ s.dev.stage = 2) → Machine.exec (.bringUpStageAdvance false ⟨c, n⟩) s = .next { s with dev := { s.dev with failCause := c } }) ∧
    (∀ c n, s.dev.stage = 2 → ∃ t, Machine.exec (.bringUpStageAdvance true ⟨c, n⟩) s = .next t ∧ t.dev = { s.dev with stage := 3, failCause := 0 } ∧
      t.parts = s.parts ∧ t.shadow = [] ∧ (memoryOk s → ∀ a, readKey t a = if a < 2 ^ 58 then 0 else readKey s a)) ∧
    (∀ c ok n, s.dev.stage = 3 → ∃ t, Machine.exec (.bringUpStageAdvance ok ⟨c, n⟩) s = .next t ∧
      t = { s with dev := { s.dev with stage := 4, failCause := 0, fabricId := n, ports := t.dev.ports } } ∧
      t.dev.ports.length = 64 ∧ ∀ q ∈ t.dev.ports, q.up = false ∧ q.owner = none) ∧
    (∀ f, (s.dev.stage = 4 ∨ s.dev.stage = 1) → f.signed = true → s.dev.security.toNat ≤ f.version.toNat →
      Machine.exec (.firmwareUpdateWrite f) s = .next { s with dev := { s.dev with pending := some f } }) ∧
    (∀ f, (f.signed = false ∨ f.version.toNat < s.dev.security.toNat) → Machine.exec (.firmwareUpdateWrite f) s = .next s) ∧
    (∀ n, s.dev.stage = 4 → s.dev.sigIndex < 2 ^ 20 → ∃ q, Machine.exec (.attestationNonceWrite n) s = .next { s with dev := { s.dev with
      sigIndex := s.dev.sigIndex + 1, quote := q } } ∧ q.status = 0 ∧ q.index.toNat = s.dev.sigIndex ∧ q.nonce = n ∧ q.firmware = s.dev.digest ∧
      q.security = s.dev.security ∧ q.signature = some s.dev.sigIndex) ∧
    (∀ n, s.dev.stage = 4 → 2 ^ 20 ≤ s.dev.sigIndex → ∃ q, Machine.exec (.attestationNonceWrite n) s =
      .next { s with free := s.free + 1, dev := { s.dev with quote := q } } ∧ q.status = 4 ∧ q.nonce = n ∧ q.signature = none)

/-- The control block of a partition that exists, in a device that is ready (20 R444, R445): a write of a field within its range sets it, one out
of range is ignored with status 0x01; RUN starts Orrery, and SNAP_ALLOW sets its bit; an action while another runs has status 0x03.  The settings
hold as they are written, while the partition runs too (DEDUCED, notes/assumptions/58.md), and a base lies in tier 0, whose addresses end at 768 GiB (DEDUCED,
notes/assumptions/17.md; DEDUCED, notes/assumptions/56.md). -/
def Obligations.ControlBlock : Prop :=
  ∀ s p x, s.dev.powered = true → s.dev.stage = 4 → s.part? p = some x →
    (∀ v : Dword, v.toNat % 4096 = 0 → v.toNat < 768 * 2 ^ 30 →
      ∃ t, Machine.exec (.registerWrite p 0x0000 v) s = .next t ∧ PartBecomes s t p { x with root := v, status := 0 }) ∧
    (∀ v : Dword, (1000 ≤ v.toNat ∧ v.toNat ≤ 1000000) →
      ∃ t, Machine.exec (.registerWrite p 0x0008 v) s = .next t ∧ PartBecomes s t p { x with yieldLimit := v.setWidth 32, status := 0 }) ∧
    (∀ v : Dword, ¬(1000 ≤ v.toNat ∧ v.toNat ≤ 1000000) →
      ∃ t, Machine.exec (.registerWrite p 0x0008 v) s = .next t ∧ PartBecomes s t p { x with status := 1 }) ∧
    (∀ v : Dword, v.toNat ≤ 255 →
      ∃ t, Machine.exec (.registerWrite p 0x000C v) s = .next t ∧ PartBecomes s t p { x with window := v.setWidth 8, status := 0 }) ∧
    (∀ (q : Nat) (v : Dword) l, q < 16 → x.launch[q]? = some l → 2 ≤ (v.extractLsb' 0 5).toNat → (v.extractLsb' 0 5).toNat ≤ 16 → v.toNat < 64 →
      ∃ t, Machine.exec (.registerWrite p (0x0108 + 32 * q) v) s = .next t ∧
        PartBecomes s t p { x with launch := x.launch.set q { l with k := (v.extractLsb' 0 5).toNat, sys := v.getLsbD 5 }, status := 0 }) ∧
    (∀ on, ∃ t, Machine.exec (.snapAllow p on) s = .next t ∧ PartBecomes s t p { x with snapAllow := on }) ∧
    (∀ v : Dword, 768 * 2 ^ 30 ≤ v.toNat → ∃ t, Machine.exec (.registerWrite p 0x0000 v) s = .next t ∧ PartBecomes s t p { x with status := 1 }) ∧
    ((x.tier = .run ∨ x.tier = .halted) → x.invalidating = none →
      ∃ t, Machine.exec (.run p) s = .next t ∧ PartBecomes s t p { x with running := true, tier := .run, status := 0 }) ∧
    ((x.tier = .run ∨ x.tier = .halted) → x.invalidating = none → (∀ g ∈ s.groups, g.part = p → ∀ f ∈ g.frags, f.watching = false) →
      ∃ t, Machine.exec (.invalidate p) s = .next t ∧
        PartBecomes s t p { x with tlb := [], blockTlb := [], invalidating := some (translated s p), status := 0 }) ∧
    ((x.tier = .drain ∨ x.tier = .swap ∨ x.tier = .force ∨ x.invalidating.isSome = true) → ∀ i, i ∈ [Instr.run p, .invalidate p, .preEmpt p, .spill p, .fill p] →
      ∃ t, Machine.exec i s = .next t ∧ PartBecomes s t p { x with status := 3 })

/-- PARTITION_ASSIGN (19 R437): idle resources that belong to nobody appear as a new partition with the defaults of the rules, whose clusters
have their homes, feeders and FIFOs, and whose ports are its own; an assignment that is not admitted leaves all but the partition's status. -/
def Obligations.PartitionAssign : Prop :=
  ∀ s a, s.dev.powered = true → s.dev.stage = 4 →
    (s.part? a.partition = none → assignOk s a = true →
      ∃ t, Machine.exec (.partitionAssign a) s = .next t ∧ t.mem = s.mem ∧ t.groups = s.groups ∧ t.grids = s.grids ∧ t.teams = s.teams ∧
        (∀ n, n ≠ a.partition → t.part? n = s.part? n) ∧
        (∃ x, t.part? a.partition = some x ∧ x.clusters = a.clusters ∧ x.quarters = a.quarters ∧ x.engines = a.engines ∧ x.ports = a.ports ∧
          x.running = false ∧ x.yieldLimit = 20000 ∧ x.window = 32 ∧ x.drain = 100000 ∧ x.swap = 20000 ∧ x.reset = 1000000 ∧ x.collective = 67108864 ∧
          x.launch.length = 16 ∧ x.work.length = 64) ∧
        (∀ c ∈ a.clusters, newHome c ∈ t.homes) ∧ (∀ q ∈ t.dev.ports, a.ports.contains q.num = true → q.owner = some a.partition)) ∧
    (assignOk s a = false → ∃ t, Machine.exec (.partitionAssign a) s = .next t ∧ t = { s with parts := t.parts } ∧
      ∀ n, t.part? n = (s.part? n).map fun x => if n = a.partition then { x with status := 1 } else x)

/-- The rings of a partition (20 R446, R447; 08 R221): a consumed count between consumed and produced is taken, and a ring that is not empty
after it is signalled again; one beyond produced is ignored with status 0x01; an answer to a number that no open record has is ignored so; an
answer to an open record closes it; a host's launch record is checked and appended, with its number and status in the result field.  That a
consumed count which goes back is refused (notes/assumptions/57.md) and that the results which a restart keeps are interlocked
(notes/assumptions/31.md) is DEDUCED. -/
def Obligations.Rings : Prop :=
  ∀ s p x, s.part? p = some x →
    (∀ n : Word, (n - x.errCons).toNat ≤ (x.errProd - x.errCons).toNat →
      ∃ t, Machine.exec (.errorConsumedWrite p n) s = .next t ∧
        PartBecomes s t p { x with errCons := n, status := 0, msiErr := x.msiErr + if n = x.errProd then 0 else 1 }) ∧
    (∀ n : Word, (x.errProd - x.errCons).toNat < (n - x.errCons).toNat →
      ∃ t, Machine.exec (.errorConsumedWrite p n) s = .next t ∧ PartBecomes s t p { x with status := 1 }) ∧
    (∀ n : Word, (n - x.faultCons).toNat ≤ (x.faultProd - x.faultCons).toNat → x.words = [] →
      (∀ g ∈ s.groups, g.part = p → ∀ f ∈ g.frags, f.stalled = false) →
      ∃ t, Machine.exec (.faultConsumedWrite p n) s = .next t ∧
        PartBecomes s t p { x with faultCons := n, status := 0, msiFault := x.msiFault + if n = x.faultProd then 0 else 1 }) ∧
    (∀ n : Word, (x.faultProd - x.faultCons).toNat < (n - x.faultCons).toNat →
      ∃ t, Machine.exec (.faultConsumedWrite p n) s = .next t ∧ PartBecomes s t p { x with status := 1 }) ∧
    (∀ n fail, (∀ r ∈ x.faults, r.seq ≠ n) →
      ∃ t, Machine.exec (.faultAnswer p n fail) s = .next t ∧
        PartBecomes s t p { x with status := 1 }) ∧
    (∀ g f n r lanes, s.group? g.id = some g → g.frag? f.id = some f → g.part = p → g.role = .ordinary → g.handler = none →
      (s.coreOf g).isSome = true → f.stopped = false → f.wait = some (.stall [n] [] lanes false) →
      (∀ y ∈ s.groups, ∀ z ∈ y.frags, z.stalled = true → y.id = g.id ∧ z.id = f.id) →
      x.faults.find? (fun y => y.seq == n) = some r → x.words = [] →
      ∃ t g2, Machine.exec (.faultAnswer p n false) s = .next t ∧ t.group? g.id = some g2 ∧
        (∃ outs, g2.frag? f.id = some { f with
          pc := f.region.entry, join := f.region.join, outs := outs, wait := none, held := false, counted := false } ∧ ∀ o ∈ outs, o.landed = false ∧ o.interlock = true) ∧
        ∃ y, t.part? p = some y ∧ y.status = 0 ∧ y.faults = x.faults.filter (fun z => z.seq != n)) ∧
    ∀ q record l, q < 16 → x.launch[q]? = some l → checkRecord x l.sys record = 0 → 2 ≤ l.k → l.items.length < 2 ^ l.k →
      let n := freeNumber ((gridNumbers s x).length + 2) (gridNumbers s x) x.nextGrid
      let slot := l.base.toNat + 256 * (l.tail % 2 ^ l.k)
      ∃ t y, Machine.exec (.launchSubmit p q record) s = .next t ∧ t.part? p = some y ∧ y.nextGrid = nextNumber n ∧
        y.launch[q]? = some { l with
          tail := l.tail + 1, result := 0#24 ++ 0#8 ++ n
          items := l.items ++ [{ record := parseRecord record, number := n, launcher := { team := none, sys := true }, reserved := false, ended := false,
                                 slot := l.tail, bytes := [] }] } ∧
        (memoryOk s → ∀ a, readKey t a = if slot ≤ a ∧ a < slot + record.length then record.getD (a - slot) 0 else readKey s a)

/-- Pre-emption tier by tier (16 R389, R390, R392; 01 R22): it begins with the drain tier; a partition with nothing to save halts at once; the
swap tier stops parked fragments and abandons the batches whose commit has not begun (16 R395), and at the grace's end every fragment outside a handler is stopped; the exchange puts
the context into the shadows and brings back the one that they held; at the reset deadline the context ends, and the partition halts.  What a
context is made of is the model's reading of 16 R390 (DEDUCED, notes/assumptions/46.md), and that launch queues stay with the partition its choice
(DESIGN CHOICE, notes/assumptions/83.md); what a reset drops besides is its
reading (DEDUCED, notes/assumptions/47.md), and when a tier ends is an event (DESIGN CHOICE,
notes/assumptions/45.md). -/
def Obligations.Preemption : Prop :=
  ∀ s p x, s.part? p = some x → x.clusters ≠ [] →
    ((x.tier = .run ∨ x.tier = .halted) → x.invalidating = none →
      ∃ t, Machine.exec (.preEmpt p) s = .next t ∧ PartBecomes s t p { x with tier := .drain, status := 0 }) ∧
    (x.tier = .drain → drained s x = true →
      ∃ t, Machine.exec (.drainComplete p) s = .next t ∧ PartBecomes s t p { x with tier := .halted, running := false }) ∧
    (x.tier = .drain → ∃ t, Machine.exec (.swapBegin p) s = .next t ∧ t.part? p = some { x with tier := .swap } ∧ t.mem = s.mem ∧ t.teams = s.teams ∧
      (∀ g ∈ s.groups, g.part = p → g.role = .ordinary → g.handler = none → g.trapWait = none → g.exited = false →
        (∀ y ∈ s.groups, y.id = g.id → y = g) →
        ∃ g2, t.group? g.id = some g2 ∧ g2 = { g with frags := g.frags.map fun f => { f with stopped := f.stopped || g.parkedFrag f } }) ∧
      ∀ n h, t.home? n = some h → x.clusters.contains n = true → ∀ b ∈ h.batches, b.pause = none → b.found = none → b.buffer = [] ∧ b.posts = []) ∧
    (x.tier = .swap → ∃ t, Machine.exec (.swapGraceExpiry p) s = .next t ∧ t = { s with parts := t.parts, groups := t.groups } ∧
      t.part? p = some { x with tier := .force } ∧ (∀ n, n ≠ p → t.part? n = s.part? n) ∧
      (∀ g ∈ t.groups, g.part = p → g.role = .ordinary → g.handler = none → g.trapWait = none → g.exited = false → ∀ f ∈ g.frags, f.stopped = true) ∧
      ∀ g ∈ s.groups, (g.part ≠ p ∨ g.handler.isSome = true) → g ∈ t.groups) ∧
    ((x.tier = .swap ∨ x.tier = .force) → allStopped s x = true →
      ∃ t c, Machine.exec (.contextExchange p) s = .next t ∧ savedContext t x = some c ∧ t.mem = s.mem ∧
        c.teams = s.teams.filter (fun y => y.part == p) ∧ c.groups.map Group.id = (s.groups.filter fun y => y.part == p).map Group.id ∧
        c.copies = s.copies.filter (fun y => y.part == p) ∧ c.flight = s.flight.filter (fun r => x.clusters.contains r.home) ∧
        (∀ g ∈ s.groups, g.part ≠ p → g ∈ t.groups) ∧ (savedContext s x = none → ∀ g ∈ t.groups, g.part ≠ p) ∧
        (∀ c0, savedContext s x = some c0 → (∀ y ∈ c0.teams, y ∈ t.teams) ∧ (∀ y ∈ c0.grids, y ∈ t.grids) ∧ ∀ y ∈ c0.mats, y ∈ t.mats) ∧
        ∃ y, t.part? p = some y ∧ y.tier = .run) ∧
    ((x.tier = .swap ∨ x.tier = .force) → ∃ t, Machine.exec (.resetDeadlineExpiry p) s = .next t ∧ (∀ g ∈ t.groups, g.part ≠ p) ∧
      (∀ d ∈ t.grids, d.part = p → d.retired = true) ∧ (∀ y ∈ t.teams, y.part ≠ p) ∧
      ∀ y, t.part? p = some y → y.tier = .halted ∧ y.running = false ∧ y.slotsUsed = [] ∧ y.relaunch = [] ∧ ∀ w ∈ y.work, w.items = [] ∧ w.parked = []) ∧
    (∀ c, (x.tier = .run ∨ x.tier = .halted) → x.invalidating = none → savedContext s x = some c →
      ∃ t, Machine.exec (.spill p) s = .next t ∧ savedContext t x = none ∧
        (∃ i ∈ t.images, i.addr = x.image ∧ i.version = 1 ∧ i.saved.ctx = c ∧ i.check = Config.checkWord i.saved ∧ i.filled = false) ∧
        t.part? p = some { x with status := 0 } ∧ t = { s with parts := t.parts, shadow := t.shadow, images := t.images }) ∧
    (∀ i, (x.tier = .run ∨ x.tier = .halted) → x.invalidating = none → s.images.find? (fun y => y.addr == x.image && y.passes x) = some i →
      ∃ t, Machine.exec (.fill p) s = .next t ∧ savedContext t x = some i.saved.ctx ∧ t.part? p = some { x with status := 0 } ∧
        t = { s with parts := t.parts, shadow := t.shadow, images := t.images } ∧ ∀ j ∈ t.images, j.addr = x.image → j.filled = true) ∧
    ((x.tier = .run ∨ x.tier = .halted) → x.invalidating = none → s.images.find? (fun y => y.addr == x.image && y.passes x) = none →
      ∃ t, Machine.exec (.fill p) s = .next t ∧ PartBecomes s t p { x with status := 2 })

/-- Orrery takes the record at the head of a queue, and lets a fence pass once every grid taken before it from its queue has retired, and not before
(05 R131).  That the grids of saved contexts hold it back too is the model's reading (DEDUCED, notes/assumptions/46.md), beside its choice that
launch queues stay with the partition (DESIGN CHOICE, notes/assumptions/83.md). -/
def Obligations.Records : Prop :=
  ∀ s p q x l r rest, s.part? p = some x → x.launch[q]? = some l → l.items = r :: rest → r.reserved = false → partWorks s p = true →
    (r.record.isFence = false → r.ended = false → r.record.indirect = false →
      ∃ t, Machine.exec (.orreryTakeRecord p q) s = .next t ∧ t = { s with parts := t.parts, grids := t.grids, nextId := s.nextId + 1 } ∧
        t.part? p = some { x with launch := x.launch.set q { l with items := rest, pause := none } } ∧
        ∃ d, t.grids = s.grids ++ [d] ∧ d.id = s.nextId ∧ d.part = p ∧ d.number = r.number ∧ d.record = r.record ∧ d.launcher = r.launcher ∧ d.queue = q ∧
          d.teams = r.record.teams.toNat ∧ d.next = 0 ∧ d.status = 0 ∧ d.retired = false ∧ d.phase.isSome = r.record.ephemeris) ∧
    (r.record.isFence = false → r.ended = true →
      ∃ t, Machine.exec (.orreryTakeRecord p q) s = .next t ∧ t.part? p = some { x with launch := x.launch.set q { l with items := rest, pause := none } } ∧
        ∃ d, t.grids = s.grids ++ [d] ∧ d.number = r.number ∧ d.teams = 0 ∧ d.status = 0x10) ∧
    (r.record.isFence = true → r.record.complete = 0 → (∀ d ∈ s.allGrids, d.part = p → d.queue = q → d.retired = true) →
      ∃ t, Machine.exec (.queueFencePass p q) s = .next t ∧ t.part? p = some { x with launch := x.launch.set q { l with items := rest } } ∧
        t = { s with parts := t.parts, teams := t.teams, shadow := t.shadow, images := t.images } ∧
        ∀ n, t.team? n = (s.team? n).map fun y => if r.launcher.team = some n then { y with retired := y.retired ++ [r.number] } else y) ∧
    (r.record.isFence = true → (∃ d ∈ s.allGrids, d.part = p ∧ d.queue = q ∧ d.retired = false) → Machine.exec (.queueFencePass p q) s = .next s)

/-- A grid retires when every team was placed, every group has exited and nothing of it is left (05 R128): its teams and groups go, and the
launching team knows. -/
def Obligations.GridRetires : Prop :=
  ∀ s d, s.grid? d.id = some d → canRetire s d = true → d.record.complete = 0 →
    ∃ t, Machine.exec (.gridRetirement d.part d.id) s = .next t ∧ t.grid? d.id = some { d with retired := true } ∧
      (∀ n, n ≠ d.id → t.grid? n = s.grid? n) ∧ t.mem = s.mem ∧ t.parts = s.parts ∧ (∀ y ∈ t.teams, y.grid ≠ d.id) ∧
      (∀ g ∈ t.groups, g ∈ s.groups ∧ (g.role = .ordinary → ∀ y ∈ s.teams, y.id = g.team → y.grid ≠ d.id)) ∧
      ∀ n y, d.launcher.team = some n → s.team? n = some y → y.grid ≠ d.id → (∀ z ∈ s.teams, z.id = n → z = y) →
        t.team? n = some { y with retired := y.retired ++ [d.number] }

/-- Teams that Orrery places (05 R122, R123, R133, R134, R135; 03 R60): their groups start on their cores with their registers zero, one fragment of
all lanes at the entry, and a gang register of zero, or of their set; the teams of a gang set have ascending numbers and ranks.  Which grid places
next beside one that fits nowhere is the model's choice (DESIGN CHOICE, notes/assumptions/83.md). -/
def Obligations.Placement : Prop :=
  ∀ s p x grid d, s.part? p = some x → s.grid? grid = some d → d.phase = none → placesNext s x d = true →
    (∀ core, d.record.gangPref = 0 → (partCores x).contains core = true → coreTakesNew s core d.record 1 = true →
      ∃ t, Machine.exec (.teamPlacement p grid core) s = .next t ∧ t.mem = s.mem ∧ t.parts = s.parts ∧ t.grid? grid = some { d with next := d.next + 1 } ∧
        (∃ y ∈ t.teams, y.id = s.nextId ∧ y.grid = grid ∧ y.num = d.next ∧ y.place = .core core ∧ y.slice = [] ∧ y.arm = 0 ∧
          y.sliceLen = sliceBytesOf d.record) ∧
        (∀ j, j < d.record.groups.toNat → StartsIn t d s.nextId j (· = 0)) ∧
        ((∀ y ∈ s.groups, y.team ≠ s.nextId ∧ y.id < s.nextId) → ∀ y ∈ s.groups, y ∈ t.groups)) ∧
    ∀ cores, d.record.gangPref ≠ 0 → setSizeOf s x d = some cores.length → setFits s x d cores = true →
      ∃ t, Machine.exec (.gangSetPlacement p grid cores) s = .next t ∧ t.mem = s.mem ∧ t.grid? grid = some { d with next := d.next + cores.length } ∧
        ∀ k core, cores[k]? = some core → ∃ y ∈ t.teams, y.grid = grid ∧ y.num = d.next + k ∧ y.rank = k ∧ y.setFirst = d.next ∧
          y.setSize = cores.length ∧ y.place = .core core ∧ y.slice = [] ∧ y.arm = 0 ∧ y.sliceLen = sliceBytesOf d.record ∧
          (cores.length ≤ 6 → d.record.groups.toNat ≤ 32 → ∀ j, j < d.record.groups.toNat → StartsIn t d y.id j (GangWord cores.length k j))

/-- Eviction and relaunch (05 R148 to R150; 16 R387, R393, R394): a set of teams that have been parked is saved in free slots; a relaunch that
passes its checks is on its core again, and its slot is free; a chosen team is saved as ready once it has stopped, and at its deadline its
fragments outside a handler are stopped. -/
def Obligations.Evictions : Prop :=
  ∀ s n y p x, s.team? n = some y → p = y.part → s.part? p = some x →
    (placing x = true → otherWork s x = true → (∀ z ∈ setOf s y, qualifies s z = true ∧ evictable s z = true ∧ z.part = p ∧ s.team? z.id = some z) →
      slotsFor s x (setOf s y) = true → (s.grid? y.grid).isSome = true →
      ∃ t, Machine.exec (.teamEviction n) s = .next t ∧ ∀ z ∈ setOf s y, ∃ c m z2, z.place = .core c ∧ t.team? z.id = some z2 ∧
        z2.place = .evicted c m false ∧ x.slotsUsed.contains m = false) ∧
    (∀ c, y.place = .core c → placing x = true → y.chosen.isSome = true →
      (∀ z ∈ setOf s y, ((groupsOf s z).all groupStopped && teamQuiet s z) = true ∧ z.part = p ∧ s.team? z.id = some z ∧ ∃ k, z.place = .core k) →
      slotsFor s x (setOf s y) = true → (s.grid? y.grid).isSome = true →
      ∃ t, Machine.exec (.forcedEviction n) s = .next t ∧ ∀ z ∈ setOf s y, ∃ k m z2, z.place = .core k ∧ t.team? z.id = some z2 ∧
        z2.place = .evicted k m true ∧ z2.chosen = none) ∧
    (y.chosen ≠ none → ∃ t, Machine.exec (.forcedStopDeadline n) s = .next t ∧ t = { s with groups := t.groups } ∧
      ∀ g ∈ s.groups, g.team = y.id → g.role = .ordinary → g.handler = none → g.trapWait = none → g.exited = false →
        (∀ z ∈ s.groups, z.id = g.id → z = g) → ∃ g2, t.group? g.id = some g2 ∧ ∀ f ∈ g2.frags, f.stopped = true) ∧
    ∀ d c m ready core, s.grid? y.grid = some d → y.place = .evicted c m ready → placing x = true →
      (firstRelaunch s x).any (fun z => z.id == n) = true → (partCores x).contains core = true → coreTakesBack s core [] y = true →
      headerOk s (x.saveBase.toNat + m * x.saveBytes.toNat) d y = true →
      (∀ g ∈ groupsOf s y, recordOk s (recordAt (x.saveBase.toNat + m * x.saveBytes.toNat) d g.num) y.saveTag g = true) →
      ∃ t y2 x2, Machine.exec (.relaunchPlacement n core) s = .next t ∧ t.team? n = some y2 ∧ y2.place = .core core ∧ t.part? p = some x2 ∧
        x2.relaunch.contains n = false ∧ x2.slotsUsed.contains m = false ∧ t.mem = s.mem

/-! ### Fragments: promotion, fusion, landings, ends of waits -/

/-- FRAGMENT_PROMOTION and FRAGMENT_FUSION (05 R145; 06 R157): a fragment that could issue is promoted; a split whose fragments all wait at joins
dissolves, and those at its own join become one fragment with all their lanes, in a new region. -/
def Obligations.PromotionAndFusion : Prop :=
  ∀ s g, s.group? g.id = some g →
    (∀ f, g.frag? f.id = some f → couldIssue s g f = true → f.held = false → f.promoted = none →
      ∃ t g2, Machine.exec (.fragmentPromotion g.id f.id) s = .next t ∧ GroupBecomes s t g.id g2 ∧ g2 = { g with frags := g2.frags } ∧
        g2.frag? f.id = some { f with promoted := some s.tick } ∧ ∀ n, n ≠ f.id → g2.frag? n = g.frag? n) ∧
    ∀ sp, g.splits.find? (fun x => x.id == sp.id) = some sp → canFuse g sp = true →
      (g.frags.filter fun f => f.split == sp.id && f.pc == sp.join) ≠ [] →
      ∃ t g2, Machine.exec (.fragmentFusion g.id sp.id) s = .next t ∧ t = { s with groups := t.groups, nextId := s.nextId + 1 } ∧
        (∀ n, n ≠ g.id → t.group? n = s.group? n) ∧ t.group? g.id = some g2 ∧
        g2 = { g with frags := g2.frags, splits := g.splits.filter (fun x => x.id != sp.id), regions := g.regions + 1 } ∧
        (∃ f, g2.frag? s.nextId = some f ∧ f.pc = sp.join ∧ f.split = sp.parent ∧ f.outs = [] ∧ f.wait = none ∧ f.join = none ∧
          (∀ i, i < 32 → (f.mask.getLsbD i = true ↔ ∃ x ∈ g.frags, x.split = sp.id ∧ x.pc = sp.join ∧ x.mask.getLsbD i = true)) ∧
          f.region = { entry := sp.join, sp := false, mask := 0, base := g.window, count := g.regions + 1, join := none, units := retiredOf g.logical }) ∧
        ∀ n, n ≠ s.nextId → g2.frag? n = (g.frags.find? fun x => x.id == n && !(x.split == sp.id && x.pc == sp.join)).map fun x =>
          if x.split = sp.id then { x with split := sp.parent } else x

/-- A result that has come, of a kind, and raises no trap: its words are written together, and it has landed in every fragment that holds it
(03 R82; 11 R297; 12 R310).  One whose PADDC has a commit to make is landed with it: memory takes the commit, piece by piece (18 R415); of a commit
that cannot be made whole nothing is written, and no register takes a word, which is the model's reading (DEDUCED, notes/assumptions/103.md). -/
def Obligations.Landings : Prop :=
  ∀ s g f o, s.group? g.id = some g → g.frag? f.id = some f → f.outs.find? (fun x => x.id == o.id) = some o → o.hasCome = true → o.trap = none →
    o.replyTrap = none → ∀ i, i = (match o.kind with
      | .objcall => Instr.objcallReplyLanding g.id f.id o.id
      | .atom => .atomReplyLanding g.id f.id o.id
      | _ => .resultLanding g.id f.id o.id) →
    (o.commit ≠ [] → o.kind = .kept → lostPiece s g.part o ≠ none → g.role = .ordinary →
      (∀ x ∈ g.frags, ∀ y ∈ x.outs, y.id ≠ o.id → y.landed = true) →
      (∀ x, s.part? g.part = some x → ringSize x.errK ≤ ringUsed x.errProd x.errCons) →
      ∃ t g2, Machine.exec i s = .next t ∧ t.mem = s.mem ∧ t.group? g.id = some g2 ∧ g2.v = g.v ∧ g2.s = g.s ∧ g2.p = g.p ∧ g2.acc = g.acc) ∧
    (o.commit ≠ [] → lostPiece s g.part o = none → ∃ t g2, Machine.exec i s = .next t ∧ t.group? g.id = some g2 ∧
      t.mem = (storeAll s g.id 0 o.str o.pc f.mask o.commit).mem ∧
      (∀ x ∈ g2.frags, ∀ y ∈ x.outs, y.id = o.id → y.landed = true) ∧
      g2.v = (g.applyWrites o.words).v ∧ g2.s = (g.applyWrites o.words).s ∧ g2.p = g.p ∧ g2.acc = g.acc) ∧
    (o.commit = [] → ∃ t g2, Machine.exec i s = .next t ∧ GroupBecomes s t g.id g2 ∧
      g2 = { g with frags := g2.frags, v := (g.applyWrites o.words).v, s := (g.applyWrites o.words).s } ∧
      (∀ x ∈ g2.frags, ∀ y ∈ x.outs, y.id = o.id → y.landed = true) ∧
      (∀ n x, g.frag? n = some x → ∃ y, g2.frag? n = some y ∧ y = { x with outs := y.outs } ∧
        ∀ z ∈ x.outs, z.id ≠ o.id → (z.landed = false ∨ (0 < z.window ∧ z.interlock = false)) → z ∈ y.outs) ∧
      (Regs.wf g.v = true → ∀ r k, (∀ w ∈ o.words, ¬(w.reg = .v r ∧ w.lane = k)) → (∀ w ∈ o.words, w.lane < 32) → k < 32 → g2.getV r k = g.getV r k))

/-- The ends of waits (12 R319, R321, R322; 14 R354): MWAIT, BARW and WAITV end when their condition holds, and not before; a poll of a watched
tier-1 word judges it as it reads now. -/
def Obligations.WaitEnds : Prop :=
  ∀ s g f, s.group? g.id = some g → g.frag? f.id = some f → g.ended = false → (s.coreOf g).isSome = true →
    (∀ n, f.wait = some (.batch n) → batchDone s g n = true → WaitOver (.mwaitRelease g.id f.id) s g f) ∧
    (∀ n, f.wait = some (.batch n) → batchDone s g n = false → Machine.exec (.mwaitRelease g.id f.id) s = .next s) ∧
    (∀ w n, f.wait = some (.phase w n) → barPassed s g.team w n = true → WaitOver (.barrierWaitRelease g.id f.id) s g f) ∧
    (∀ w n, f.wait = some (.phase w n) → barPassed s g.team w n = false → Machine.exec (.barrierWaitRelease g.id f.id) s = .next s) ∧
    (∀ l a n r c t1 pc, f.wait = some (.watch l a n r c t1 true pc) → WaitOver (.waitvRelease g.id f.id) s g f) ∧
    (∀ l a n r c t1 pc, f.wait = some (.watch l a n r c t1 false pc) → Machine.exec (.waitvRelease g.id f.id) s = .next s) ∧
    ∀ l a n r c pc, f.wait = some (.watch l a n r c true false pc) → broken s g.part l = false →
      if relHolds r.toNat (8 * n) (natOfBytes (readLocs s (nowView s g) l n)) (c.toNat % 2 ^ (8 * n)) = true then
        ∃ t g2, Machine.exec (.tier1WaitvPoll g.id f.id) s = .next t ∧ GroupBecomes s t g.id g2 ∧ g2 = { g with frags := g2.frags } ∧
          g2.frag? f.id = some { f with wait := some (.watch l a n r c true true pc) } ∧ ∀ m, m ≠ f.id → g2.frag? m = g.frag? m
      else Machine.exec (.tier1WaitvPoll g.id f.id) s = .next s

/-! ### Homes -/

/-- A request comes to its home (11 R287): it leaves the flight, and joins the open bin of its object and question, or opens a bin; a bin closes
at the end of its window, behind the batches that closed before. -/
def Obligations.HomeArrival : Prop :=
  ∀ s home h p, s.home? home = some h → s.part? (partOfHome s home) = some p → p.window ≠ 0 →
    (∀ r, homeFull s home = false → arrivals s home [r.id] = [r] → r.time = none → r.ask.isBind = false → (∀ b ∈ h.bins, b.reqs.length + 1 < 32) →
      ∃ t h2, Machine.exec (.homeRequestArrival home [r.id]) s = .next t ∧ t.home? home = some h2 ∧ t.flight = s.flight.filter (fun x => x.id != r.id) ∧
        t.mem = s.mem ∧ t.groups = s.groups ∧
        ((∃ b ∈ h.bins, b.object = some r.object) → (∀ b ∈ h.bins, b.object = some r.object → b.ask = r.ask) →
          h2 = { h with bins := h.bins.map fun b => if b.object = some r.object then { b with reqs := b.reqs ++ [r] } else b }) ∧
        ((∀ b ∈ h.bins, b.object ≠ some r.object) → h.bins.length < 256 →
          h2 = { h with nextBin := h.nextBin + 1, bins := h.bins ++ [{ num := h.nextBin, obj := r.base, ask := r.ask, reqs := [r] }] })) ∧
    (∀ n, ∃ t h2, Machine.exec (.combiningWindowExpiry home n) s = .next t ∧ t = { s with homes := t.homes } ∧ t.home? home = some h2 ∧
      h2 = { h with bins := h.bins.filter (fun b => b.num != n), closed := h.closed ++ h.bins.filter fun b => b.num == n })

/-- A batch of a user method starts in a service group (11 R284, R291): request i's operands and source id stand in v0, v1 and v2 of lane i, the
base, the method's id and the number of requests in s0 to s3, and its fragment of those lanes is at the method's entry. -/
def Obligations.BatchStarts : Prop :=
  ∀ s home sg h b x table s1 entry m, s.home? home = some h → sg < 4 → partWorks s (partOfHome s home) = true → (∀ y ∈ h.batches, y.sg ≠ sg) →
    firstBin s home (fun y => isMethodBin y && !(isPoolBin s home y)) = some b → b.ask = .method m → b.reqs.length ≤ 32 →
    bindingOf s home b.obj = some x → x.table = some table →
    methodEntry (takeBin s home b.num) (homeCtx home x.rights) table m.toNat = .ok (s1, some entry) → s1.home? home = (takeBin s home b.num).home? home →
    ∃ t g f h2, Machine.exec (.batchStart home sg) s = .next t ∧ g ∈ t.groups ∧ g.role = .service home sg ∧ g.frags = [f] ∧
      f.mask = maskOf (List.range b.reqs.length) ∧ f.pc = entry ∧ g.window = 0 ∧ g.granules = 8 ∧
      (∀ i r, b.reqs[i]? = some r → g.getV 0 i = r.op0 ∧ g.getV 1 i = r.op1 ∧ g.getV 2 i = r.source) ∧
      g.getPair 0 = b.obj ∧ g.getS 2 = m.setWidth 32 ∧ g.getS 3 = BitVec.ofNat 32 b.reqs.length ∧
      t.home? home = some h2 ∧ (∀ y ∈ h2.closed, y.num ≠ b.num) ∧
      ∃ y ∈ h2.batches, y.sg = sg ∧ y.bin = b ∧ y.rights = x.rights ∧ y.buffer = [] ∧ y.posts = []

/-- The fast path performs an atomic request at its element and replies (12 R309, R310, R312): the element takes the operation's result, no other
byte of memory changes, and the reply holds the old value and, for a 32-bit type, the new one.  Of an element in a pool the first access takes the
old value down, and changes nothing in memory; the second performs the operation on it; the first waits while another batch of its home is updating
a pool (19 R436; DEDUCED, notes/assumptions/96.md). -/
def Obligations.FastPath : Prop :=
  ∀ s home b r op t k d, firstBin s home (fun y => y.ask.isIntrinsic) = some b → b.reqs = [r] →
    r.ask = .intrinsic op t → r.loc = .mem k → broken s (partOfHome s home) r.loc = false → r.reply = some d → r.time = none → memoryOk s →
    (keyTier k = 1 → r.found = none → poolBusy s home none (some b.num) = true → Machine.exec (.fastPathBatch home) s = .next s) ∧
    (keyTier k = 1 → r.found = none → t.toNat ≤ 3 → poolBusy s home none (some b.num) = false → ∃ u h h2, Machine.exec (.fastPathBatch home) s = .next u ∧ u = { s with homes := u.homes } ∧
      s.home? home = some h ∧ u.home? home = some h2 ∧ h2 = { h with closed := h.closed.map fun y => if y.num = b.num then
        { y with reqs := [{ r with found := some (natOfBytes (readKeys s k (if t.toNat ≤ 1 then 4 else 8))) }] } else y }) ∧
    ((keyTier k ≠ 1 ∨ r.found.isSome = true) → t.toNat = 0 ∨ t.toNat = 1 → (∀ n, r.found = some n → n < 2 ^ 32) →
      ∃ u, Machine.exec (.fastPathBatch home) s = .next u ∧
      let x := BitVec.ofNat 32 (r.found.getD (natOfBytes (readKeys s k 4)))
      let y := elementAfter op.toNat (t == 0) x r.op0 r.op1
      (∀ a, readKey u a = if k ≤ a ∧ a < k + 4 then (y >>> (8 * (a - k))).setWidth 8 else readKey s a) ∧
      ∀ g o, s.group? d.group = some g → (∃ f ∈ g.frags, o ∈ f.outs) → o.id = d.out → o.awaits.contains r.lane = true →
        ∃ g2 f2 o2, u.group? d.group = some g2 ∧ f2 ∈ g2.frags ∧ o2 ∈ f2.outs ∧
          o2 = { o with awaits := o.awaits.filter (fun l => l != r.lane), replies := o.replies ++ [{ lane := r.lane, w0 := x, w1 := y, err := false }] }) ∧
    ((keyTier k ≠ 1 ∨ r.found.isSome = true) → t.toNat = 2 ∨ t.toNat = 3 → op.toNat ≠ 7 → (∀ n, r.found = some n → n < 2 ^ 64) →
      ∃ u, Machine.exec (.fastPathBatch home) s = .next u ∧
      let x := BitVec.ofNat 64 (r.found.getD (natOfBytes (readKeys s k 8)))
      let y := elementAfter op.toNat (t == 2) x (r.op1 ++ r.op0) 0
      (∀ a, readKey u a = if k ≤ a ∧ a < k + 8 then (y >>> (8 * (a - k))).setWidth 8 else readKey s a) ∧
      ∀ g o, s.group? d.group = some g → (∃ f ∈ g.frags, o ∈ f.outs) → o.id = d.out → o.awaits.contains r.lane = true →
        ∃ g2 f2 o2, u.group? d.group = some g2 ∧ f2 ∈ g2.frags ∧ o2 ∈ f2.outs ∧
          o2 = { o with
            awaits := o.awaits.filter (fun l => l != r.lane)
            replies := o.replies ++ [{ lane := r.lane, w0 := x.extractLsb' 0 32, w1 := x.extractLsb' 32 32, err := false }] })

/-- OBJBIND and OBJUNBIND at the home (11 R306): a bind enters the base, or replies why not: 0x04 for a malformed request, 0x03 for a table that is
not well formed or cannot be read, 0x02 for a base that is bound already, 0x01 for a table that is full, in this order; an unbind removes the
binding, or replies 0x05.  That a table which cannot be read replies 0x03 is the model's reading (DEDUCED, notes/assumptions/77.md). -/
def Obligations.Binds : Prop :=
  ∀ s home h b r, s.home? home = some h → b.reqs = [r] → r.ask = b.ask →
    (∀ len sel table, firstBin s home (fun y => match y.ask with | .bind .. => true | _ => false) = some b → b.ask = .bind len sel table →
      bindMalformed len sel = true →
      Machine.exec (.bindRequest home) s = .next (replyStatus (takeBin (homeGo s home b.num) home b.num) (partOfHome s home) r 0x04)) ∧
    (∀ len sel table s1, firstBin s home (fun y => match y.ask with | .bind .. => true | _ => false) = some b → b.ask = .bind len sel table →
      bindMalformed len sel = false → homeResume s home b.num = .go → bindTable s (homeCtx home r.rights) r.base sel table = .ok (s1, false) →
      s1.home? home = some h →
      Machine.exec (.bindRequest home) s = .next (replyStatus (takeBin (homeGo s1 home b.num) home b.num) (partOfHome s home) r 0x03)) ∧
    (∀ len sel table s1 st a, firstBin s home (fun y => match y.ask with | .bind .. => true | _ => false) = some b → b.ask = .bind len sel table →
      bindMalformed len sel = false → homeResume s home b.num = .go → bindTable s (homeCtx home r.rights) r.base sel table = .error (s1, .fail st a) →
      Machine.exec (.bindRequest home) s = .next (replyStatus (takeBin (homeGo s1 home b.num) home b.num) (partOfHome s home) r 0x03)) ∧
    (∀ len sel table a, firstBin s home (fun y => match y.ask with | .bind .. => true | _ => false) = some b → b.ask = .bind len sel table →
      bindMalformed len sel = false → homeResume s home b.num = .fail a →
      Machine.exec (.bindRequest home) s = .next (replyStatus (takeBin (homeGo s home b.num) home b.num) (partOfHome s home) r 0x03)) ∧
    (∀ len sel table s1, firstBin s home (fun y => match y.ask with | .bind .. => true | _ => false) = some b → b.ask = .bind len sel table →
      bindMalformed len sel = false → homeResume s home b.num = .go → bindTable s (homeCtx home r.rights) r.base sel table = .ok (s1, true) →
      s1.home? home = some h →
      ((∃ x ∈ h.bindings, x.base = r.base) →
        Machine.exec (.bindRequest home) s = .next (replyStatus (takeBin (homeGo s1 home b.num) home b.num) (partOfHome s home) r 0x02)) ∧
      ((∀ x ∈ h.bindings, x.base ≠ r.base) → 4096 ≤ h.bindings.length →
        Machine.exec (.bindRequest home) s = .next (replyStatus (takeBin (homeGo s1 home b.num) home b.num) (partOfHome s home) r 0x01))) ∧
    (∀ len sel table s1, firstBin s home (fun y => match y.ask with | .bind .. => true | _ => false) = some b → b.ask = .bind len sel table →
      bindMalformed len sel = false → homeResume s home b.num = .go → bindTable s (homeCtx home r.rights) r.base sel table = .ok (s1, true) →
      s1.home? home = some h → s1.groups = s.groups →
      (∀ x ∈ h.bindings, x.base ≠ r.base) → h.bindings.length < 4096 →
      ∃ t h2, Machine.exec (.bindRequest home) s = .next t ∧ t.home? home = some h2 ∧
        h2.bindings = h.bindings ++ [{ base := r.base, length := len, table := if sel = 1 then none else some table, rights := r.rights }] ∧
        h2.closed = h.closed.filter (fun y => y.num != b.num) ∧
        ∀ d, r.reply = some d → t.groups = (s.modGroup d.group fun g => g.mapOuts fun o => o.reply d.out { lane := r.lane, w0 := 0, w1 := 0, err := false }).groups) ∧
    (firstBin s home (fun y => y.ask == .unbind) = some b → b.ask = .unbind →
      ∃ t h2, Machine.exec (.unbindRequest home) s = .next t ∧ t.home? home = some h2 ∧ h2.bindings = h.bindings.filter (fun x => x.base != r.base) ∧
        h2.closed = h.closed.filter (fun y => y.num != b.num) ∧ t.mem = s.mem ∧
        ∀ d, r.reply = some d → t.groups = (s.modGroup d.group fun g => g.mapOuts fun o => o.reply d.out
          { lane := r.lane, w0 := if (h.bindings.any fun x => x.base == r.base) then 0 else 5, w1 := 0, err := false }).groups)

/-- The pool methods, each for one request whose reads and writes go through (10 R270, R272): ALLOC pops the block at the top of the free stack
and sets its count to 1, or replies 0x01 when none is free; SHARE adds one to a count; RELEASE takes one from it; APPEND replaces the entry of
a tail block of count 1 by itself, no longer shared.  A method that writes a pool does so in a second access, with what the first has read there (19
R436; DEDUCED, notes/assumptions/96.md). -/
def Obligations.PoolMethods : Prop :=
  ∀ s home b x r s1 bs p,
    let e := poolCtx home x.rights b.reqs
    let status := fun (y : Byte) (t : State) => replyStatus t (partOfHome s home) r y
    let value := fun (n : Nat) (t : State) => replyTo t (partOfHome s home) r (BitVec.ofNat 32 n) 0 false
    engRecord s e r.base.toNat = .ok (s1, bs) → poolOf bs = some p →
    (PoolTurn s home 0 b x r → p.free = 0 → PoolEnds (.alloc home) s home b s1 (status 0x01)) ∧
    (∀ s2 i s3 s4, PoolTurn s home 0 b x r → 0 < p.free → engRead s1 e ((p.stack + 4 * (p.free - 1) : Nat) : Int) 4 = .ok (s2, i) → i < p.count →
      engWrite s2 e ((r.base.toNat + 0x14 : Nat) : Int) 4 (p.free - 1) = .ok s3 → engWrite s3 e ((p.refs + 2 * i : Nat) : Int) 2 1 = .ok s4 →
      PoolEnds (.alloc home) s home b s4 (value i)) ∧
    (∀ s2 n s3, PoolTurn s home 1 b x r → r.op0.toNat < p.count → engRead s1 e ((p.refs + 2 * r.op0.toNat : Nat) : Int) 2 = .ok (s2, n) → n ≠ 65535 →
      engWrite s2 e ((p.refs + 2 * r.op0.toNat : Nat) : Int) 2 (n + 1) = .ok s3 → PoolEnds (.share home) s home b s3 (value (n + 1))) ∧
    (∀ s2 n s3, PoolTurn s home 2 b x r → r.op0.toNat < p.count → engRead s1 e ((p.refs + 2 * r.op0.toNat : Nat) : Int) 2 = .ok (s2, n) → 1 < n →
      engWrite s2 e ((p.refs + 2 * r.op0.toNat : Nat) : Int) 2 (n - 1) = .ok s3 → PoolEnds (.release home) s home b s3 (value (n - 1))) ∧
    (∀ s2 s3 s4 s5, PoolTurn s home 2 b x r → r.op0.toNat < p.count → engRead s1 e ((p.refs + 2 * r.op0.toNat : Nat) : Int) 2 = .ok (s2, 1) →
      engWrite s2 e ((p.refs + 2 * r.op0.toNat : Nat) : Int) 2 0 = .ok s3 →
      engWrite s3 e ((p.stack + 4 * p.free : Nat) : Int) 4 r.op0.toNat = .ok s4 →
      engWrite s4 e ((r.base.toNat + 0x14 : Nat) : Int) 4 (p.free + 1) = .ok s5 → PoolEnds (.release home) s home b s5 (value 0)) ∧
    ∀ s2 w s3 n s4,
      let a := (r.op1 ++ r.op0).toNat
      let i := w % 2 ^ 28
      PoolTurn s home 3 b x r → engRead s1 e (a : Int) 4 = .ok (s2, w) → w / 2 ^ 28 % 8 = 0 → i < p.count →
      engRead s2 e ((p.refs + 2 * i : Nat) : Int) 2 = .ok (s3, n) → n ≤ 1 → engWrite s3 e (a : Int) 4 i = .ok s4 →
      PoolEnds (.append home) s home b (s4.modPart x.rights.part fun y => { y with blockTlb := y.blockTlb.filter fun z => z.2.1 != a }) (value i)

/-! ### Engines -/

/-- FEED_START (10 R257 to R259, R275): the record is read afresh and checked against its handle and the window; a stream begins with its first
tile; a tile is filled, or written back to the real positions of its window, and its feed is complete, once its tier-3 requests are acknowledged
(19 R426); one whose record cannot be read or fails a check fails.  A fill that comes to a page that is not present keeps the record, the indices
and what it has read, and goes on from there (10 R260).  A feed of a plane format sees every commit unit as it was when it began, which is the
model's reading of 08 R233 (DEDUCED, notes/assumptions/109.md), and so is that a feed begins after its group's earlier atomics (DEDUCED,
notes/assumptions/108.md). -/
def Obligations.FeedStarts : Prop :=
  (∀ s core n q x h k s2, FeedTurn s core n q x h → q.running = some k → q.shape ≠ [] → x.wb = false → x.isStream = false → q.wire = [] →
    x.failed = false → q.ahead = [] → x.seq = nextNumber q.done → feeder? s2 core n = some { q with pause := none } →
    (let s0 := modFeeder s core n fun y => { y with pause := none }
     fillTile s0 (feedCtx s0 core n x) (parseShape q.shape) q.index x q.got = .ok s2) →
    ∃ t, Machine.exec (.feedStart core n) s = .next t ∧ t = { s2 with feeders := t.feeders, groups := t.groups } ∧
      feeder? t core n = some { q with items := q.items.drop 1, done := x.seq, running := none, shape := [], index := [], pause := none, got := {}, past := none }) ∧
  ∀ s core n q x h, FeedTurn s core n q x h → q.running = none →
    let s0 := modFeeder s core n fun y => { y with pause := none }
    (∀ s1 bs ix, feedRecord s0 (feedCtx s0 core n x) x = .ok (s1, bs, ix) → feeder? s1 core n = some q →
      (shapeOk (parseShape bs) = true ∧ (parseShape bs).code.setWidth 8 = h.format ∧ (parseShape bs).swizzle = h.swizzle.toNat ∧
        1 ≤ x.h.toNat ∧ x.h.toNat ≤ 65536 ∧ 1 ≤ x.w.toNat ∧ x.w.toNat ≤ 65536) ∧
      (x.isStream = true → ∃ t, Machine.exec (.feedStart core n) s = .next t ∧ t = { s1 with feeders := t.feeders } ∧
        feeder? t core n = some { q.keeps (parseShape bs).elem.isPlane with running := some 0, shape := bs, index := ix }) ∧
      (∀ s2, q.wire = [] → x.failed = false → q.ahead = [] → x.seq = nextNumber q.done →
        let s3 := modFeeder s1 core n fun y => y.keeps (parseShape bs).elem.isPlane
        let fill := fillTile s3 (feedCtx s3 core n x) (parseShape bs) ix x {}
        let complete := ∃ t, Machine.exec (.feedStart core n) s = .next t ∧ t = { s2 with feeders := t.feeders, groups := t.groups } ∧
          feeder? t core n = some { q with
            items := q.items.drop 1, done := x.seq, running := none, shape := [], index := [], pause := none, got := {}, past := none }
        (x.wb = false → x.isStream = false → feeder? s2 core n = some (q.keeps (parseShape bs).elem.isPlane) → fill = .ok s2 → complete) ∧
        (∀ a k w far, x.wb = false → x.isStream = false → feeder? s2 core n = some (q.keeps (parseShape bs).elem.isPlane) →
          fill = .error (s2, .page a k w, far) →
          ∃ t q2, Machine.exec (.feedStart core n) s = .next t ∧ feeder? t core n = some q2 ∧ q2.pause.isSome = true ∧
            q2 = { q.keeps (parseShape bs).elem.isPlane with running := some 0, shape := bs, index := ix, got := far, pause := q2.pause }) ∧
        (x.wb = true → feeder? s2 core n = some q →
          let e := feedCtx s1 core n x
          let r := parseShape bs
          let hd := readHead s1 e.view x.team (tileBase h)
          tileFits s1 x.team (tileBase h) 16 = true → headOk hd h = true →
          tileFits s1 x.team (tileBase h) (tileBytes r.elem (r.scale == 1) hd.rows hd.cols (headLabels hd r.rows)) = true →
          BackDone e r (fun s i j => tileCode s e.view x.team (tileBase h) hd r.elem (r.scale == 1) (headLabels hd r.rows) i j)
            (unitsOf r (backPositions r ix x)) s1 s2 → complete)) ∧
      -- the positions of a write-back: the real ones of the window, each with the tile position that it comes from
      ∀ k i j, (k, (i, j)) ∈ backPositions (parseShape bs) ix x ↔ ∃ a b, a < x.h.toNat ∧ b < x.w.toNat ∧
        (parseShape bs).source ix (x.row0.toNat + a) (x.col0.toNat + b) = some k ∧ (i, j) = if x.tr then (b, a) else (a, b)) ∧
    ∀ s1 st a, feedRecord s0 (feedCtx s0 core n x) x = .error (s1, .fail st a) →
      Machine.exec (.feedStart core n) s = .next (failFeed s1 core n x st a)

/-- STREAM_TILE_DELIVERY and DEFERRED_DATA_FETCH (10 R258, R260, R261; 15 R370): the next tile of a stream enters its FIFO, and its handle counts it;
the head tile of a labelled stream takes its data, or none when no output needs it; either goes on from what it had read when it came to a page that
is not present. -/
def Obligations.StreamTiles : Prop :=
  (∀ s core n q x h k f s1 tile, FeedTurn s core n q x h → q.running = some k → x.isStream = true → k + 1 < feedTotal q x →
    fifo? s core (x.dest.extractLsb' 0 4).toNat = some f → f.bound = some (x.group, x.handle) → f.discard = 0 →
    fifoRoom f (parseShape q.shape) = true → (∀ y ∈ s.feeders, y.core = core → y ≠ q → ∀ z, y.items.head? = some (.cmd z) → z.group = x.group → z.handle ≠ x.handle) →
    (let s0 := modFeeder s core n fun y => { y with pause := none }
     streamTile s0 (feedCtx s0 core n x) (parseShape q.shape) q.index x k q.got = .ok (s1, tile)) →
    s1.feeders = (modFeeder s core n fun y => { y with pause := none }).feeders → s1.fifos = s.fifos → s1.groups = s.groups →
    ∃ t, Machine.exec (.streamTileDelivery core n) s = .next t ∧ t = { s1 with feeders := t.feeders, fifos := t.fifos, groups := t.groups } ∧
      fifo? t core (x.dest.extractLsb' 0 4).toNat = some { f with tiles := f.tiles ++ [tile] } ∧ feeder? t core n = some { q with running := some (k + 1), got := {} } ∧
      ∀ g, s.group? x.group = some g → ∃ g2, t.group? x.group = some g2 ∧ g2 = { g with handles := g2.handles } ∧
        g2.handle? x.handle = some { h with delivered := h.delivered + 1 }) ∧
  ∀ s core fifo f t1 rest q x, fifo? s core fifo = some f → f.tiles = t1 :: rest → f.pause = none → partWorks s (partOfCore s core) = true →
    feederOfFifo s core fifo = some (q, x) →
    (deferredNeed s f = some false → ∃ t, Machine.exec (.deferredDataFetch core fifo) s = .next t ∧
      fifo? t core fifo = some { f with tiles := { t1 with data := some [] } :: rest, got := {} } ∧ t.mem = s.mem) ∧
    ∀ s1 d, deferredNeed s f = some true → readTileData s (feedCtx s core q.num x) (parseShape q.shape) q.index x t1.index f.got = .ok (s1, d) →
      fifo? s1 core fifo = some f →
      ∃ t, Machine.exec (.deferredDataFetch core fifo) s = .next t ∧ fifo? t core fifo = some { f with tiles := { t1 with data := some d } :: rest, got := {} }

/-- The copy engines (10 R264, R266): a command whose records pass their checks performs its units over the destination positions of its window,
each from its source positions, up to the next boundary of 64 KiB of its destination, where it may pause and from where it goes on; after its last
unit it is complete with status 0, once its tier-3 requests are acknowledged (19 R426): COPY, GATHER, SCATTER, TRANSPOSE, CONVERT, PAD, FILL and
SCATRED, which takes an element of a pool in two accesses (19 R436; DEDUCED, notes/assumptions/96.md).  A command that reads a plane format sees
every commit unit as it was when it began, which is the model's reading of 08 R233 (DEDUCED, notes/assumptions/109.md).  That the 64 KiB are counted in what is written is the model's reading (DEDUCED, notes/assumptions/87.md), and so is how TRANSPOSE
reads a plane, and an e8 destination is written (DEDUCED, notes/assumptions/101.md; DEDUCED, notes/assumptions/102.md). -/
def Obligations.CopyCommands : Prop :=
  (∀ s p q x c kind s1 sb db ai bi t, CopyTurn s p q x c kind none →
    let w := parseCopy c.bytes
    let s0 := modCopyQ s p q CopyQueue.resumed
    let a := parseShape sb
    let b := parseShape db
    let us := copyParts b (copyPositions w a b ai bi)
    let n := unitsToBoundary b.elem.bits 0 us
    copyRecords s0 (copyCtx s0 p q c) w = .ok (s1, sb, db, ai, bi) →
    let s2 := modCopyQ s1 p q fun y => y.keeps (kind != 7 && a.elem.isPlane)
    (∀ i, UnitCopy p q kind i → UnitsDone (copyCtx s2 p q c) w a b ai none (us.take n) s2 t → CopyStops i s t p q c us sb db ai bi n) ∧
    -- the boundary: the first unit that brings what is written to 64 KiB
    (∀ m, m < n → bitsOfUnits b (us.take m) < 524288) ∧ (n < us.length → 524288 ≤ bitsOfUnits b (us.take n)) ∧
    -- the destination positions: the real ones of the window; TRANSPOSE takes each from the transposed source position, PAD only the synthesised
    (∀ k r m, (k, (r, m)) ∈ copyPositions w a b ai bi → ∃ i j, i < (if kind = 5 then w.w else w.h) ∧ j < (if kind = 5 then w.h else w.w) ∧
      b.source bi (w.drow + i) (w.dcol + j) = some k ∧ (r, m) = (if kind = 5 then (w.srow + j, w.scol + i) else (w.srow + i, w.scol + j)) ∧
      (kind = 8 → a.source ai r m = none)) ∧
    ∀ i j k, i < (if kind = 5 then w.w else w.h) → j < (if kind = 5 then w.h else w.w) → b.source bi (w.drow + i) (w.dcol + j) = some k → kind ≠ 8 →
      (k, if kind = 5 then (w.srow + j, w.scol + i) else (w.srow + i, w.scol + j)) ∈ copyPositions w a b ai bi) ∧
  (∀ s p q x c kind k t, CopyTurn s p q x c kind (some k) → x.dst ≠ [] →
    let w := parseCopy c.bytes
    let s0 := modCopyQ s p q CopyQueue.resumed
    let a := parseShape x.src
    let b := parseShape x.dst
    let us := copyParts b (copyPositions w a b x.srcIdx x.dstIdx)
    let n := unitsToBoundary b.elem.bits (bitsOfUnits b (us.take k)) (us.drop k)
    ∀ i, UnitCopy p q kind i → UnitsDone (copyCtx s0 p q c) w a b x.srcIdx x.found ((us.drop k).take n) s0 t →
      CopyStops i s t p q c us x.src x.dst x.srcIdx x.dstIdx (k + n)) ∧
  -- the first of the two accesses of an element in a pool
  ∀ s p q x c k i j more v s1 s2 addr na s3 l, CopyTurn s p q x c 4 (some k) → x.dst ≠ [] → x.found = none →
    let w := parseCopy c.bytes
    let s0 := modCopyQ s p q CopyQueue.resumed
    let e := copyCtx s0 p q c
    let a := parseShape x.src
    let b := parseShape x.dst
    let m := b.elem.bits / 8
    (copyParts b (copyPositions w a b x.srcIdx x.dstIdx))[k]? = some ([(i, j)], more) → readPos s0 e a x.srcIdx j.1 j.2 = .ok (s1, v) →
    elemAddr s1 e b i = .ok (s2, addr, na) → engLoc s2 e .update addr m = .ok (s3, l) → l.pooled = true →
    Machine.exec (.scatred p q) s = .next (modCopyQ s3 p q fun y => { y with
      running := some k, src := x.src, dst := x.dst, srcIdx := x.srcIdx, dstIdx := x.dstIdx, found := some (natOfBytes (readLocs s3 e.view l m)) })

/-- The end of a copy command (10 R262, R264): it leaves its queue, the count of complete commands takes its number when it is the next one, and
without a completion word memory is as it was.  MIGRATE copies physical memory 64 KiB by 64 KiB, and needs the system right. -/
def Obligations.CopyCompletes : Prop :=
  (∀ s p q x c status, copyQ? s p q = some x → (parseCopy c.bytes).complete = 0 → ∃ x2, copyQ? (endCopy s p q c status) p q = some x2 ∧
    x2.items = x.items.drop 1 ∧ (x.ahead = [] → c.seq = nextNumber x.done → x2.done = c.seq ∧ x2.ahead = []) ∧ x2.nextSeq = x.nextSeq ∧
    x2.running = none ∧ x2.wire = [] ∧ (endCopy s p q c status).mem = s.mem) ∧
  (∀ s p q x c k, CopyTurn s p q x c 9 k → c.rights.sys = false → (parseCopy c.bytes).complete = 0 →
    ∃ t, Machine.exec (.migrate p q) s = .next t ∧ t.mem = s.mem ∧ ∃ x2, copyQ? t p q = some x2 ∧ x2.items = x.items.drop 1 ∧
      (x.ahead = [] → c.seq = nextNumber x.done → x2.done = c.seq)) ∧
  ∀ s p q x c k, CopyTurn s p q x c 9 k → c.rights.sys = true → (copyCtx s p q c).eph = false → (parseCopy c.bytes).complete = 0 → s.memErr = [] →
    (parseCopy c.bytes).srow = 0 → (parseCopy c.bytes).scol = 0 →
    let m := k.getD 0
    let src := (parseCopy c.bytes).src + 65536 * m
    let dst := (parseCopy c.bytes).dst + 65536 * m
    reachable s p (.mem src) = true → reachable s p (.mem dst) = true → memoryOk s →
    ∃ t, Machine.exec (.migrate p q) s = .next t ∧
      (∀ a, readKey t a = if dst ≤ a ∧ a < dst + 65536 then readKey s (src + (a - dst)) else readKey s a) ∧
      ∃ x2, copyQ? t p q = some x2 ∧
        if (parseCopy c.bytes).drow ≤ m + 1 then
          x2.items = x.items.drop 1 ∧ x2.running = none ∧ (x.ahead = [] → c.seq = nextNumber x.done → x2.done = c.seq)
        else x2 = { x with running := some (m + 1), pause := none, found := none }

/-- The matrix engine on accumulators (14 R342, R351, R355, R359; 15 R369): MZERO clears the words of its tiles, MLDA loads them from the slice,
and MNORM divides each row by its sum; an MMA whose tiles have come puts its sums there, and with a relation what rejected elements take and the
statistics; a joint MMA does so in every member, with the tiles of member 0.  Registers, memory and every other accumulator word are as they were,
and the command is gone.  Which group's command begins when several could is the model's reading (DEDUCED, notes/assumptions/86.md). -/
def Obligations.MatrixEngine : Prop :=
  (∀ s core g c, MatrixTurn s core g c → Regs.wf g.acc = true → cwM c.word ≤ 128 → cwN c.word ≤ 128 →
    let lo := cwBase c.word
    let n := cwTiles c.word + if c.word.getLsbD 7 then 1 else 0
    (c.kind = .mzero → ∃ t g2, Machine.exec (.matrixEngineStart core g.id) s = .next t ∧ MatrixDone s t g g2 c ∧
      ∀ k row col, row < 32 → col < 32 → g2.getAcc k row col = if lo ≤ k ∧ k < lo + n then 0 else g.getAcc k row col) ∧
    (c.kind = .mlda → ∃ t g2, Machine.exec (.matrixEngineStart core g.id) s = .next t ∧ MatrixDone s t g g2 c ∧
      ∀ k row col, row < 32 → col < 32 → g2.getAcc k row col = if lo ≤ k ∧ k < lo + n then
        BitVec.ofNat 32 (natOfBytes (readLocs s (cmdView s c g) (.slice g.team (c.aux.toNat + 4 * (1024 * (k - lo) + 32 * row + col))) 4))
        else g.getAcc k row col) ∧
    (c.kind = .mnorm → cwType c.word = 0 → ∃ t g2, Machine.exec (.matrixEngineStart core g.id) s = .next t ∧ MatrixDone s t g g2 c ∧
      AccKept g g2 [(lo, cwTiles c.word)] ∧ ∀ r k, r < cwM c.word → k < cwN c.word → accGet g2 c.word lo r k =
        if (statGet g (lo + cwTiles c.word) r 3).getLsbD 0 then 0
        else (f32OfNum (Machine.Num.div (fmtF32.decode (accGet g c.word lo r k)) (numOfF32 (statGet g (lo + cwTiles c.word) r 1)))).toNat) ∧
    (c.kind = .mma → ∃ t g2, Machine.exec (.matrixEngineStart core g.id) s = .next t ∧ MatrixDone s t g g2 c ∧ MmaDone s c c.aTiles g g2)) ∧
  ∀ s core g c, JointTurn s core g c →
    (∀ m ∈ jointMembers s c, cwM m.word ≤ 128 ∧ cwN m.word ≤ 128 ∧ ∀ x, s.group? m.group = some x → Regs.wf x.acc = true) →
    ∃ t, Machine.exec (.matrixEngineStart core g.id) s = .next t ∧
      t = { s with groups := t.groups, mats := t.mats, dev := { s.dev with live := t.dev.live } } ∧
      (∀ n, (∀ m ∈ jointMembers s c, m.group ≠ n) → t.group? n = s.group? n) ∧
      (∀ m ∈ jointMembers s c, ∀ q ∈ t.mats, ∀ x ∈ q.cmds, x.id ≠ m.id) ∧
      ∀ m ∈ jointMembers s c, ∃ gm gm2, s.group? m.group = some gm ∧ t.group? m.group = some gm2 ∧ gm2 = { gm with acc := gm2.acc } ∧
        MmaDone s m ((jointMembers s c).headD c).aTiles gm gm2

/-- The matrix engine's attention commands (15 R373 to R375; 14 R345): MMAS puts the probabilities of each row into its tiles, +0 where none is
admitted, and the row's max, sum and corr into its statistics; MMAP adds the products of the probabilities, what its output held scaled by the row's
corr, and takes over the statistics.  Every other accumulator word is as it was, and the command is gone. -/
def Obligations.MatrixAttention : Prop :=
  ∀ s core g c, MatrixTurn s core g c → Regs.wf g.acc = true → cwM c.word ≤ 128 → cwN c.word ≤ 128 → cwType c.word = 0 →
    (c.kind = .mmas → ∃ t g2 row, Machine.exec (.matrixEngineStart core g.id) s = .next t ∧ MatrixDone s t g g2 c ∧
      MmasDone s c c.aTiles g g2 row) ∧
    (c.kind = .mmap → cwK c.word % 32 = 0 → ∃ t g2, Machine.exec (.matrixEngineStart core g.id) s = .next t ∧ MatrixDone s t g g2 c ∧
      MmapDone s c g g2 ((pTiles c.word c.aux).1 + (pTiles c.word c.aux).2))

/-- The matrix engine's stores (14 R356 to R359; 10 R255): MSTA puts the words of its tiles into the slice of its team, and MTR the header of a tile
and its data, 128 bytes after it; every other byte of the slice, memory and the registers are as they were, and the command is gone. -/
def Obligations.MatrixStores : Prop :=
  ∀ s core g c, MatrixTurn s core g c → SliceOpen s g →
    (c.kind = .msta → ∃ t, Machine.exec (.matrixEngineStart core g.id) s = .next t ∧ MatrixStored s t g c fun o =>
      let k := o - c.aux.toNat
      if c.aux.toNat ≤ o ∧ k < 4096 * (cwTiles c.word + if c.word.getLsbD 7 then 1 else 0) then
        some ((g.getAcc (cwBase c.word + k / 4096) (k % 4096 / 128) (k % 128 / 4)).extractLsb' (8 * (k % 4)) 8)
      else none) ∧
    ∀ bias h, c.kind = .mtr → biasOf s c g = .ok bias → g.handle? c.ha = some h →
      ∃ t, Machine.exec (.matrixEngineStart core g.id) s = .next t ∧ MatrixStored s t g c fun o =>
        (bytesAt (tileBase h) (mtrHeader c h) o).or (bytesAt (tileBase h + 128) (mtrData s c g h bias) o)

/-- RENDEZVOUS_TIMEOUT (14 R349, R352): the latch at which a group's joint command waits fails, and no command that had arrived there, nor a later
one of its group, is left in a queue. -/
def Obligations.RendezvousFails : Prop :=
  ∀ s n l, s.latches.find? (fun y => !y.failed && y.arrived.any fun c => c.group == n) = some l →
    partWorks s (((s.group? n).map Group.part).getD 0) = true →
    ∃ t, Machine.exec (.rendezvousTimeout n) s = .next t ∧ (∀ y ∈ t.latches, y.members = l.members → y.j = l.j → y.failed = true) ∧
      ∀ c ∈ l.arrived, ∀ q ∈ t.mats, ∀ x ∈ q.cmds, x.isCommand = true → x.group = c.group → x.index < c.index

/-! ### Ephemeris mode -/

/-- Phases (17 R400, R402): the teams of the next phase are placed together; at its end every byte that teams of the phase wrote takes the value
of the highest-numbered team that wrote it, a byte that an atomic of that team wrote last keeps its result (17 R406; DEDUCED,
notes/assumptions/21.md), every other byte stays, the launches of the phase are written (17 R407), and the next phase may start.  What it says of bytes holds where no launch of any phase is to be
written, and where the commit adds no entry to the error log: no two teams wrote one byte, or the log is full; both lie in memory too. -/
def Obligations.Phases : Prop :=
  (∀ s p x grid d ph s1, s.part? p = some x → s.grid? grid = some d → d.phase = some ph → placesNext s x d = true → nextPhase s x d = some s1 →
    ∃ t d2, Machine.exec (.phaseStart p grid) s = .next t ∧ t.teams = s1.teams ∧ t.groups = s1.groups ∧ t.grid? grid = some d2 ∧
      d2.phase = some { ph with running := true } ∧ d2.next = d.next + min ph.width (d.teams - d.next)) ∧
  ∀ s grid d ph, s.grid? grid = some d → d.phase = some ph → ph.running = true → phaseGroups s grid = [] → gridWorking s grid = false → memoryOk s →
    (let table := (s.teams.filter fun y => y.grid == grid).flatMap tableOf
     conflicts table = false ∨ ∀ x, s.part? d.part = some x → ringSize x.errK ≤ ringUsed x.errProd x.errCons) →
    ∃ t, Machine.exec (.phaseCommit d.part grid) s = .next t ∧ t.grid? grid = some { d with phase := some { ph with num := ph.num + 1, running := false, before := [] } } ∧
      (∀ y ∈ t.teams, y.grid = grid → y.writes = []) ∧
      (∀ x ∈ t.parts, ∀ l ∈ x.launch, ∀ r ∈ l.items, r.reserved = true → ∀ n, r.launcher.team = some n → s.teamOf n grid = false) ∧
      ((∀ x ∈ s.parts, ∀ l ∈ x.launch, ∀ r ∈ l.items, r.reserved = false) →
      (∀ y ∈ s.teams, y.grid = grid → ∀ k, k < 2 ^ 80 → (∃ w ∈ y.writes, w.key = k ∧ w.atomic = false) →
        (∀ z ∈ s.teams, z.grid = grid → z ≠ y → (∃ w ∈ z.writes, w.key = k ∧ w.atomic = false) → z.num < y.num) →
        readKey t k = (y.leaves k).getD (readKey s k)) ∧
      ∀ k, k < 2 ^ 80 → (∀ y ∈ s.teams, y.grid = grid → ∀ w ∈ y.writes, w.key = k → w.atomic = true) → readKey t k = readKey s k)

/-- The end of a quantum, deadlock, and logical time at a home (17 R403 to R406): in its turn a group's held effects are performed, and its next
quantum begins with the units retired so far; with nothing held only the quantum changes.  A group that stands still in a deadlocked phase
traps EPHVIOL at its parking unit.  The requests in logical time of one quantum and hop, at a home or on their way to it, are cut into batches of one object once that quantum is
complete, and one such batch closes at a time.  When a release takes
effect, and where it stands among those of other groups, is the model's reading (DEDUCED, notes/assumptions/22.md,
notes/assumptions/26.md, notes/assumptions/27.md), so is what can still happen by itself in a phase that stands (DEDUCED, notes/assumptions/108.md), and so is that a trap waits for the group's results (DEDUCED, notes/assumptions/30.md). -/
def Obligations.LogicalTime : Prop :=
  (∀ s g l d, s.group? g.id = some g → g.logical = some l → s.gridOf g = some d → canRelease s g = true → g.frags ≠ [] →
    (l.held = [] → ∃ t, Machine.exec (.quantumEnd g.id) s = .next t ∧
      GroupBecomes s t g.id { g with logical := some { l with
        held := [], quantum := l.quantum + 1, start := l.endAt, ended := false, leaver := none } }) ∧
    ∀ s1 g1 l1, firstOverflow s d.id l.held = none → releaseHeld g.id l.quantum l.held s = (s1, []) → s1.group? g.id = some g1 → g1.logical = some l1 →
      g1.frags ≠ [] →
      ∃ t, Machine.exec (.quantumEnd g.id) s = .next t ∧
        GroupBecomes s1 t g.id { g1 with logical := some { l1 with
          held := [], quantum := l1.quantum + 1, start := l1.endAt, ended := false, leaver := none } }) ∧
  (∀ s g f d ph, s.group? g.id = some g → phaseGroups s d.id = [g] → s.gridOf g = some d → s.grid? d.id = some d → d.phase = some ph →
    ph.running = true → deadlocked s d.id = true → lowestFrag (g.frags.filter fun x => x.wait.isSome) = some f → g.frag? f.id = some f →
    AllLanded g → g.role = .ordinary → g.trapWait = none → d.record.vector ≠ 0 →
    ∃ s1 t, Machine.exec (.ephemerisDeadlock d.part d.id) s = .next t ∧ GroupBecomes s s1 g.id (g.setFrag { f with wait := none, pc := f.last }) ∧
      HandlerStarts s1 t g f 0x13 0 f.last f.last 1 d.record.vector) ∧
  ∀ s home h, s.home? home = some h →
    (∀ r d q n, h.queue = [r] → h.bins = [] → r.time = some (q, n) → r.grid = some d → allReleased s d q = true →
      (∀ x ∈ openRequests s, x.grid = some d → x.time.isSome = true → x.timeLt r = false) → (∀ x ∈ s.flight, x.home ≠ h.num ∧ x.id ≠ r.id) →
      ∃ t, Machine.exec (.homeLogicalTimeApply home) s = .next t ∧ t = { s with homes := t.homes, dev := { s.dev with live := t.dev.live } } ∧ t.home? home = some { h with
        queue := [], nextBin := h.nextBin + 1, closed := h.closed ++ [{ num := h.nextBin, obj := r.base, ask := r.ask, reqs := [r] }] }) ∧
    ∀ r rest, cutBatch (dueRequests s h) = r :: rest →
      -- they are requests of one grid, quantum and hop, of one object, which asks one thing, and nothing earlier is left
      (rest.length < 32 ∧ (r.ask.isBind = true → rest = []) ∧ (∀ x ∈ rest, x.object = r.object ∧ x.ask = r.ask ∧ x.quantum = r.quantum ∧ x.hops = r.hops) ∧
        ∃ d, allReleased s d r.quantum = true ∧ (∀ x ∈ r :: rest, x.grid = some d ∧ x.time.isSome = true) ∧
          ∀ x ∈ openRequests s, x.grid = some d → x.time.isSome = true → x.timeLt r = false) ∧
      (takesBatch s h (r :: rest) = true → ∃ t, Machine.exec (.homeLogicalTimeApply home) s = .next t ∧
        t = { s with homes := t.homes, dev := { s.dev with live := t.dev.live }, flight := s.flight.filter fun x => !((r :: rest).any fun y => y.id == x.id) } ∧
        t.home? home = some { h with
          bins := h.bins.filter (fun b => !(b.object == some r.object)), nextBin := h.nextBin + 1
          queue := h.queue.filter fun x => !((r :: rest).any fun y => y.id == x.id)
          closed := h.closed ++ h.bins.filter (fun b => b.object == some r.object) ++ [{ num := h.nextBin, obj := r.base, ask := r.ask, reqs := r :: rest }] }) ∧
      (takesBatch s h (r :: rest) = false → Machine.exec (.homeLogicalTimeApply home) s = .next s)

/-! ### The fabric and the host -/

/-- Flits (19 R425 to R427): one that fails its CRC changes nothing; the next one in the order of its virtual lane is delivered, one that is ahead
waits for those before it on its lane, and one that was delivered before is not delivered again; an acknowledged flit is no longer held for
retransmission; nothing is sent on a paused lane.  That every virtual lane has numbers of its own is the model's reading (DEDUCED,
notes/assumptions/49.md), and so is how they compare (DEDUCED, notes/assumptions/68.md). -/
def Obligations.Flits : Prop :=
  ∀ s n q flit, upPort s n = some q →
    (flit.good = false → Machine.exec (.abajaFlitReceive n flit) s = .next s) ∧
    (flit.good = true → q.expect.length = 4 → ∃ t q2, Machine.exec (.abajaFlitReceive n flit) s = .next t ∧ upPort t n = some q2 ∧ t.mem = s.mem ∧ t.parts = s.parts ∧
      q2.unacked = q.unacked.filter (fun x => !(flit.acks.contains (x.1, x.2.1))) ∧
      (∀ l, l ≠ flit.lane → laneSeq q2.expect l = laneSeq q.expect l) ∧
      ((∀ x ∈ q.early, x.1 ≠ flit.lane) →
        let due := laneSeq q.expect flit.lane
        (flit.seq = due → laneSeq q2.expect flit.lane = due + 1 ∧ q2.early = q.early ∧
          ∀ r, flit.body = .request r → q2.rx = if flit.lane = 0 then q.rx ++ [r] else q.rx) ∧
        (flit.seq ≠ due → (flit.seq - due).toNat < 2048 →
          q2.expect = q.expect ∧ q2.rx = q.rx ∧ q2.early = q.early ++ [(flit.lane, flit.seq, flit.body)]) ∧
        (2048 ≤ (flit.seq - due).toNat → q2.expect = q.expect ∧ q2.rx = q.rx ∧ q2.early = q.early))) ∧
    (∀ lane, ∃ t, Machine.exec (.pause n lane) s = .next t ∧ t = { s with dev := { s.dev with ports := t.dev.ports } } ∧
      ∃ q2, upPort t n = some q2 ∧ q2 = { q with paused := q2.paused } ∧ q2.paused.contains lane = true ∧ ∀ l ∈ q.paused, l ∈ q2.paused) ∧
    (∀ lane, ∃ t, Machine.exec (.resume n lane) s = .next t ∧ t.mem = s.mem ∧ t.groups = s.groups ∧
      ∃ q2, upPort t n = some q2 ∧ q2.paused = q.paused.filter (fun l => l != lane) ∧ q2.nextSeq = q.nextSeq ∧
        q2.unacked = q.unacked.map fun x => if x.1 = lane ∧ x.2.2 = 0 then (x.1, x.2.1, 1) else x)

/-- Ports and accesses from outside (19 R426, R428, R431, R434, R435; 20 R443): a port that is down trains at the version that both have, once the
device is ready; a flit that is not acknowledged is sent again, and at its eighth attempt the port goes down; a store of another device that an
export range of the partition owning the address admits is performed, and one that none admits changes no memory and is answered so; the host
reads and writes the tier 0 that a partition owns, at the address that a decoder of its port gives, and nothing else.  That a pool's time-out lasts for the next
turn alone is the model's choice (DESIGN CHOICE, notes/assumptions/48.md); how the host sets its decoders up, and what a partition owns, is its
reading (DEDUCED, notes/assumptions/51.md; DEDUCED, notes/assumptions/100.md). -/
def Obligations.OutsideAccesses : Prop :=
  (∀ s n v peer, (s.dev.powered = false ∨ s.dev.stage ≠ 4) → Machine.exec (.portTraining n v peer) s = .next s) ∧
  (∀ s n q v peer, s.dev.powered = true → s.dev.stage = 4 → findBy Port.num s.dev.ports n = some q → q.up = false →
    (0x0100 ≤ v.toNat → ∃ t, Machine.exec (.portTraining n v peer) s = .next t ∧ t = { s with dev := { s.dev with ports := t.dev.ports } } ∧
      findBy Port.num t.dev.ports n = some { q with up := true, version := 0x0100, peer := peer }) ∧
    (v.toNat < 0x0100 → Machine.exec (.portTraining n v peer) s = .next s)) ∧
  (∀ s n q x, upPort s n = some q → findBy Port.num s.dev.ports n = some q → q.unacked.find? (fun y => decide (0 < y.2.2)) = some x →
    (x.2.2 < 7 → ∃ t q2, Machine.exec (.flitRetransmitTimeout n) s = .next t ∧ t.mem = s.mem ∧ upPort t n = some q2 ∧
      q2 = { q with unacked := q.unacked.map fun y => if y.1 = x.1 ∧ y.2.1 = x.2.1 then (y.1, y.2.1, y.2.2 + 1) else y }) ∧
    (7 ≤ x.2.2 → ∃ t q2, Machine.exec (.flitRetransmitTimeout n) s = .next t ∧ findBy Port.num t.dev.ports n = some q2 ∧ q2.up = false ∧
      q2.unacked = [] ∧ q2.rx = q.rx ∧ q2.owner = q.owner ∧ q2.downs = if q.downs = 0xFFFF#16 then q.downs else q.downs + 1)) ∧
  (∀ s n q r rest, findBy Port.num s.dev.ports n = some q → q.rx = r :: rest → memoryOk s → s.memErr = [] →
    ∃ t, Machine.exec (.remoteRequestArrival n) s = .next t ∧
      (admitted? s r = none → t.mem = s.mem ∧ t.flight = s.flight ∧ ∀ q1, upPort s n = some q1 →
        (∀ m x y post, r.op ≠ .object m x y post) → (∀ l x y, r.op ≠ .bind l x y) → r.op ≠ .unbind →
        ∃ q2, upPort t n = some q2 ∧ q2.answers = q1.answers ++ [(laneSeq q1.nextSeq 1, .refused)]) ∧
      (∀ k p a, r.op = .load k → admitted? s r = some (p, a) → t.mem = s.mem ∧ ∀ q1, upPort s n = some q1 →
        ∃ q2, upPort t n = some q2 ∧ q2.answers = q1.answers ++ [(laneSeq q1.nextSeq 1, .data (readKeys s a k))]) ∧
      (∀ d p a, r.op = .store d → admitted? s r = some (p, a) →
        ∀ b, readKey t b = if a ≤ b ∧ b < a + d.length then d.getD (b - a) 0 else readKey s b) ∧
      (∀ op ty x y p a, r.op = .atomic op ty x y → admitted? s r = some (p, a) → t.mem = s.mem ∧ ∃ z, t.flight = s.flight ++ [z] ∧
        z.ask = .intrinsic op ty ∧ z.op0 = x ∧ z.op1 = y ∧ z.loc = .mem a ∧ z.base = r.addr ∧ z.lane = r.lane.toNat ∧ z.port = some n ∧ z.link = n + 1)) ∧
  (∀ s h x addr data write, s.part? h.part = some x → memoryOk s → s.memErr = [] →
    let n := if write then data.length else 64
    let ds := setDecoders s.dev.hdm h.port h.decoders
    let s0 : State := { s with dev := { s.dev with hdm := ds } }
    let hit := fun (d : HdmDecoder) => d.port == h.port && d.part == h.part && decide (d.base ≤ addr.toNat) && decide (addr.toNat + n ≤ d.base + d.size)
    (ds.any hit = false → Machine.exec (.hostCxlAccess h write addr data) s = .next s0) ∧
    ∀ d, ds.find? hit = some d →
      let a := d.start + (addr.toNat - d.base)
      (ownsRange x a n = false → Machine.exec (.hostCxlAccess h write addr data) s = .next s0) ∧
      (ownsRange x a n = true → write = true → ∃ t, Machine.exec (.hostCxlAccess h write addr data) s = .next t ∧ t.parts = s.parts ∧ t.dev.hdm = ds ∧
        ∀ b, readKey t b = if a ≤ b ∧ b < a + data.length then data.getD (b - a) 0 else readKey s b) ∧
      (ownsRange x a n = true → write = false → ∃ t, Machine.exec (.hostCxlAccess h write addr data) s = .next t ∧
        t = { s with dev := { s.dev with hdm := ds, hostLatch := t.dev.hostLatch } } ∧ t.dev.hostLatch = (List.range 64).map fun i => readKey s (a + i))) ∧
  -- the decoders of a port: those that the host writes replace those of their numbers, of which there are 8
  (∀ old port (d : HdmDecoder), d.port = port →
    (port < 2 → d.num < 8 → setDecoders old port [d] = old.filter (fun x => !(x.port == port && x.num == d.num)) ++ [d]) ∧
    (2 ≤ port ∨ 8 ≤ d.num → setDecoders old port [d] = old)) ∧
  ∀ s n, n < 2 → s.dev.poolDown.contains n = false →
    Machine.exec (.poolAccessTimeout n) s = .next { s with dev := { s.dev with poolDown := s.dev.poolDown ++ [n] } }

/-- Collectives (19 R438 to R440; R426, R437): a malformed command ends with 0x01, one with a buffer outside tier 0 with the status of its check,
one without a port with 0x03; with every member there and in agreement, the member receives the members' blocks in ascending order, the sums of the
blocks, or the root's data, and its command completes with status 0 once the flits that carry its own data are acknowledged; members that disagree end it with 0x09, and a member that does not come with
0x0A.  The other devices' members are an input of the event (DESIGN CHOICE, notes/assumptions/75.md), and by which port the data leaves is open (DESIGN
CHOICE, notes/assumptions/97.md). -/
def Obligations.Collectives : Prop :=
  ∀ s p q x c others, headColl s p q = some (c, x) → x.pause = none → x.running = none →
    let w := parseColl c.bytes
    let e := copyCtx s p q c
    (∀ i, (w.kind, i) ∈ [(1, Instr.allgather p q others), (2, .redscat p q others), (3, .allred p q others), (4, .bcast p q others)] →
      (collOk s w = false → Machine.exec i s = .next (endCopy s p q c 0x01)) ∧
      (∀ s1 st a, collOk s w = true → checkBuffer e false w.send (bufferPieces w.send w.sendRange) s = .error (s1, .fail st a) →
        Machine.exec i s = .next (endCopy s1 p q c st)) ∧
      ∀ s1, collOk s w = true → checkBuffer e false w.send (bufferPieces w.send w.sendRange) s = .ok s1 →
        (∀ s2 st a, checkBuffer e true w.recv (bufferPieces w.recv w.recvBytes) s1 = .error (s2, .fail st a) →
          Machine.exec i s = .next (endCopy s2 p q c st)) ∧
        ∀ s2, checkBuffer e true w.recv (bufferPieces w.recv w.recvBytes) s1 = .ok s2 →
          let ms := sameColl s2 w others
          let s3 := modCopyQ s2 p q CopyQueue.resumed
          (hasPort s2 p = false → Machine.exec i s = .next (endCopy s2 p q c 0x03)) ∧
          (hasPort s2 p = true → membersThere w ms = false → Machine.exec i s = .next s) ∧
          (hasPort s2 p = true → membersThere w ms = true → membersAgree w ms = false → Machine.exec i s = .next (endCopy s3 p q c 0x09)) ∧
          (hasPort s2 p = true → membersThere w ms = true → membersAgree w ms = true → membersCome w ms = true → ∀ s4 mine s5 k,
            readBuffer (copyCtx s3 p q c) w.send (bufferPieces w.send w.sendBytes) s3 = .ok (s4, mine) →
            let vs := (List.range w.count).map fun i => if i = w.self then mine else ((ms.find? fun m => m.index == i).map Member.data).getD []
            writeBuffer (copyCtx s3 p q c) w.recv (collResult w vs) (bufferPieces w.recv w.recvBytes) 0 (sendColl s4 p q mine.length) = (s5, k, none) →
            ∀ x5, copyQ? s5 p q = some x5 →
              (x5.data = [] → Machine.exec i s = .next (endCopy s5 p q c 0)) ∧
              (x5.data ≠ [] → Machine.exec i s = .next (modCopyQ s5 p q fun y => { y with running := some k, pause := none })))) ∧
    -- the data of this member leaves as flits of 128 bytes, for whose acknowledgement the command waits
    (∀ n, hasPort s p = true → ∃ x2, copyQ? (sendColl s p q n) p q = some x2 ∧ x2.data.length = x.data.length + (n + 127) / 128) ∧
    (∀ s1, checkColl s p q c w = .ok s1 → Machine.exec (.collectiveTimeout p q) s = .next (endCopy s1 p q c 0x0A)) ∧
    ∀ vs, (w.kind = 1 → collResult w vs = vs.flatten) ∧ (w.kind = 4 → collResult w vs = vs.getD w.root []) ∧
      (w.kind = 3 → w.flags = 2 → w.block % 4 = 0 → vs ≠ [] → (∀ v ∈ vs, v.length = w.block) → ∀ j, 4 * j < w.block →
        fieldOf (collResult w vs) (4 * j) 4 = (vs.map fun v => fieldOf v (4 * j) 4).sum % 2 ^ 32)

/-! ### Snapshots -/

/-- Snapshots (20 R451 to R454; R443): a trigger of a device that is ready holds the units that it covers, when none is held, and is otherwise
counted as missed, but for triggers of one cycle, which are accepted together; the latch of the trigger that came first keeps the value of every
register of those units, and counts; a release frees them, once they have latched; the window reads the latched registers of the unit that its
selector names.  What the registers of traffic count is open, and SNAPIN's readiness the model's choice (DESIGN CHOICE, notes/assumptions/54.md). -/
def Obligations.Snapshots : Prop :=
  (∀ s fn, (s.dev.powered = false ∨ s.dev.stage ≠ 4) → ∀ i, i ∈ [Instr.snapin, .snapshotTrigger fn, .snapshotRelease fn] →
    Machine.exec i s = .next s) ∧
  (∀ s, s.dev.powered = true → s.dev.stage = 4 → (∀ y ∈ s.parts, y.snap.held = false) → ∀ i, i ∈ [Instr.snapin, .snapshotTrigger 8] →
    (s.dev.snap.held = false →
      Machine.exec i s = .next { s with dev := { s.dev with snap := { s.dev.snap with held := true, pending := true, since := s.clock } } }) ∧
    (s.dev.snap.held = true → s.dev.snap.pending = true → s.dev.snap.since = s.clock → Machine.exec i s = .next s) ∧
    (s.dev.snap.held = true → (s.dev.snap.pending = false ∨ s.dev.snap.since ≠ s.clock) → s.dev.snap.missed ≠ 0xFFFFFFFF#32 →
      Machine.exec i s = .next { s with dev := { s.dev with snap := { s.dev.snap with missed := s.dev.snap.missed + 1 } } })) ∧
  (∀ s p x, s.dev.powered = true → s.dev.stage = 4 → s.part? p = some x → p < 8 → s.dev.snap.held = false → (∀ y ∈ s.parts, y.id = p → y = x) →
    (x.snap.held = false → ∃ t, Machine.exec (.snapshotTrigger p) s = .next t ∧
      PartBecomes s t p { x with snap := { x.snap with held := true, pending := true, since := s.clock } }) ∧
    (x.snap.held = true → (x.snap.pending = false ∨ x.snap.since ≠ s.clock) → x.snap.missed ≠ 0xFFFFFFFF#32 →
      ∃ t, Machine.exec (.snapshotTrigger p) s = .next t ∧ PartBecomes s t p { x with snap := { x.snap with missed := x.snap.missed + 1 } }) ∧
    (x.snap.pending = false → ∃ t, Machine.exec (.snapshotRelease p) s = .next t ∧
      PartBecomes s t p { x with snap := { x.snap with held := false } }) ∧
    (x.snap.pending = true → Machine.exec (.snapshotRelease p) s = .next s)) ∧
  (∀ s, s.dev.powered = true → s.dev.stage = 4 → s.dev.snap.pending = false →
    Machine.exec (.snapshotRelease 8) s = .next { s with dev := { s.dev with snap := { s.dev.snap with held := false } } }) ∧
  (∀ s, s.dev.snap.pending = true → (∀ y ∈ s.parts, y.snap.pending = false) →
    ∃ t, Machine.exec .snapshotLatch s = .next t ∧ t = { s with dev := { s.dev with snap := t.dev.snap, latched := t.dev.latched } } ∧
      t.dev.snap = { s.dev.snap with pending := false, sequence := s.dev.snap.sequence + 1 } ∧ Latched s t 8) ∧
  (∀ s p x, s.parts.filter (fun y => y.id == p) = [x] → p < 8 → x.snap.pending = true →
    (s.dev.snap.pending = true → x.snap.since < s.dev.snap.since) → (∀ y ∈ s.parts, y.id ≠ p → y.snap.pending = true → x.snap.since < y.snap.since) →
    ∃ t, Machine.exec .snapshotLatch s = .next t ∧ t = { s with parts := t.parts, dev := { s.dev with latched := t.dev.latched } } ∧
      t.part? p = some { x with snap := { x.snap with pending := false, sequence := x.snap.sequence + 1 } } ∧ (∀ n, n ≠ p → t.part? n = s.part? n) ∧
      Latched s t p) ∧
  ∀ s fn j, j < 128 →
    let sel := (snapWindow s fn).selector
    let kind := (sel.extractLsb' 24 8).toNat
    let unit := (sel.extractLsb' 0 16).toNat
    ((kind, unit) ∈ snapUnits s fn → j < snapRegs kind →
      snapRead s fn (0x8400 + 8 * j) = ((s.dev.latched.find? fun y => y.1 == (kind, unit, j)).map Prod.snd).getD 0) ∧
    (((kind, unit) ∉ snapUnits s fn ∨ snapRegs kind ≤ j) → snapRead s fn (0x8400 + 8 * j) = 0)

/-! ### Encoding -/

/-- Words that the manual writes out decode to the instructions they stand for (03 R74, R79; 05 to 18, the worked encodings); the word of a VDOT
with the format form 9 is ill formed, for such a form traps ILLEGAL (09 R243), and the word of all ones stands for nothing (03 R84). -/
def Obligations.DecodeWords : Prop :=
  decodeWords [0x00000000] = .ok .nop ∧
  decodeWords [0x1E000004, 0x301A3456] = .ok (.sli 6 (.long 0x00123456)) ∧
  decodeWords [0x0C1FFFFB] = .ok (.dbra 7 (-5)) ∧
  decodeWords [0x20102860] = .ok (.sadd 4 5 6) ∧
  decodeWords [0x34082052] = .ok (.ssetp 2 4 5 2) ∧
  decodeWords [0x36280002] = .ok (.srsys 10 2) ∧
  decodeWords [0x80180801] = .ok (.ptos 6 1) ∧
  decodeWords [0x1C084400, 0x40100822] = .ok (.vmul (some { sat := true, psc := 0b10001 }) 4 1 2) ∧
  decodeWords [0x62201041] = .ok (.vfma none 8 2 4 1) ∧
  decodeWords [0x6E3C4849] = .error .illFormed ∧
  decodeWords [0xFFFFFFFF] = .error .unassigned

/-- What is decoded from the words that encode a well-formed instruction is that instruction, whatever the values of its fields and prefixes. -/
def Obligations.RoundTrip : Prop :=
  ∀ i : Instr, i.isEncoded = true → i.wellFormed = true → decodeWords (encode i) = .ok i

/-- No word has a second meaning and no bit of one is ignored (03 R61, R70, R75, R84): words that decode to an instruction begin with the words
that encode it, and the instruction is well formed. -/
def Obligations.WordsOfDecoded : Prop :=
  ∀ ws i, decodeWords ws = .ok i → i.wellFormed = true ∧ ws.take (encode i).length = encode i

/-! ### The machine as a whole -/

/-- A step whose turn lets a quadrant issue runs the instruction that is decoded from the words at the program counter of the fragment that
comes first (03 R75, R85; 05 R145), in the machine after the use of their page's leaf; what follows from it settles.  The first clause names
the word of a unit of one word by the bytes at the program counter, the second takes a unit of any length by its fetch.  A step whose turn is an
event runs that event (how turns come is the model's choice: DESIGN CHOICE, notes/assumptions/4.md). -/
def Obligations.StepRunsDecoded : Prop :=
  (∀ s core quadrant busy gid fid rest others g f l tier leaf i t,
    s.agenda = .issue core quadrant busy :: rest →
    issueOrder (beginTurn s) (readyFrags (beginTurn s) core quadrant busy) = (gid, fid) :: others →
    (beginTurn s).group? gid = some g → g.frag? fid = some f →
    translate (beginTurn s) ((beginTurn s).rightsOf g) none .fetch f.pc 0 = .loc l tier leaf → ((s.ephGrid g).isSome = false ∨ tier = 0) →
    refusedRemote l = false → broken (beginTurn s) g.part l = false →
    decodeWords [BitVec.ofNat 32 (natOfBytes (readLocs s {} l 4))] = .ok i →
    Machine.exec i { useLeaves (beginTurn s) g.part [.loc l tier leaf] false with cur := some (gid, fid) } = .next t → wasHeld t gid fid = false →
    step s = .next (poolBack (.issue core quadrant busy) (settle Machine.exec t))) ∧
  (∀ s core quadrant busy gid fid rest others g f ws s1 i t,
    s.agenda = .issue core quadrant busy :: rest →
    issueOrder (beginTurn s) (readyFrags (beginTurn s) core quadrant busy) = (gid, fid) :: others →
    (beginTurn s).group? gid = some g → g.frag? fid = some f → fetchWords g f 3 [] (beginTurn s) = .ok (s1, ws) → decodeWords ws = .ok i →
    Machine.exec i { s1 with cur := some (gid, fid) } = .next t → wasHeld t gid fid = false →
    step s = .next (poolBack (.issue core quadrant busy) (settle Machine.exec t))) ∧
  ∀ s i rest t, s.agenda = .event i :: rest → isEvent i = true → Machine.exec i { beginTurn s with cur := none } = .next t →
    step s = .next (poolBack (.event i) (settle Machine.exec t))

/-- Every step answers a state: nothing that a program or the outside does ends a run. -/
def Obligations.StepsGoOn : Prop := ∀ s, goesOn s

/-- Every step keeps the canonical form of memory. -/
def Obligations.MemoryKept : Prop := ∀ s t, memoryOk s → stepsTo s t → memoryOk t

/-- The machine at reset: memory in its canonical form, at the first stage of bring-up, with no partition and nothing of one, and every port down and
unassigned (20 R443); every byte of memory reads as zero, before stage 2 has written it, and that is the model's choice (DESIGN CHOICE,
notes/assumptions/1.md, notes/assumptions/2.md). -/
def Obligations.ResetState : Prop :=
  memoryOk State.reset ∧ (∀ k, readKey State.reset k = 0) ∧ Bare State.reset ∧ State.reset.dev.powered = true ∧ State.reset.dev.stage = 1

/-! ### The order of detection -/

/-- Traps of the checks before execution (03 R81, R85; 06 R162; 08 R220; 16 R379, R380; 20 R451), for a group with a trap vector and in no
handler.  SNAP without the right to it traps PRIV.  A vector instruction that touches a register inside an open window traps LAHZ; one with no
such touch that names a vector register outside the allocation traps REGX.  BRX to an address that is no multiple of 4 traps MISALIGN with that
address, and LD.32 reports the misaligned lanes, with the address of the lowest.  None has any other effect.  That the handler runs as a fragment
of its own is the model's reading (DEDUCED, notes/assumptions/30.md). -/
def Obligations.ChecksTrap : Prop :=
  ∀ s g f d, Issues s g f → Plain g → g.trapWait = none → AllLanded g → s.gridOf g = some d → d.record.vector ≠ 0 →
    (s.isSysGroup g = false → (∀ x, s.part? g.part = some x → x.snapAllow = false) →
      ∃ t, Machine.exec .snap s = .next t ∧ HandlerStarts s t g f 0x02 0 f.pc f.pc 1 d.record.vector) ∧
    (∀ i r, (vectorRow g f i = some r ∨ floatRow g f i = some r) →
      (∃ o ∈ f.outs, o.interlock = false ∧ 0 < o.window ∧ ∃ x ∈ o.regs, named r.vs r.ss x = true) →
      ∃ t, Machine.exec i s = .next t ∧ HandlerStarts s t g f 0x04 0 f.pc f.pc 1 d.record.vector) ∧
    (∀ i r, (vectorRow g f i = some r ∨ floatRow g f i = some r) →
      (∀ o ∈ f.outs, ∀ x ∈ o.regs, named r.vs r.ss x = true → o.interlock = true ∨ o.window = 0) → (∃ n ∈ r.vs, 8 * g.granules ≤ n) →
      ∃ t, Machine.exec i s = .next t ∧ HandlerStarts s t g f 0x03 0 f.pc f.pc 1 d.record.vector) ∧
    (∀ a : BitVec 5, Clear g f [] [2 * a.toNat, 2 * a.toNat + 1] → (g.getPair (2 * a.toNat)).toNat % 4 ≠ 0 →
      ∃ t, Machine.exec (.brx a) s = .next t ∧ HandlerStarts s t g f 0x06 (g.getPair (2 * a.toNat)) f.pc f.pc 1 d.record.vector) ∧
    ∀ px r am a b la, Clear g f (g.abs r :: memVs g am b) (memSs am a) → (am = 0 → a.toNat % 2 = 0) →
      let bad := (lanesOf (activeOf g f px)).filter fun i => (memAddr g am a b i).toNat % 4 != 0
      bad ≠ [] →
      ∃ t g2, Machine.exec (.ld32 px r am a b la) s = .next t ∧ t = { s with groups := t.groups, nextId := t.nextId } ∧
        t.group? g.id = some g2 ∧ g2.v = g.v ∧ g2.s = g.s ∧ g2.p = g.p ∧
        g2.trap = { trapRecordOf g f 0x06 (memAddr g am a b (bad.headD 0)) f.pc f.pc 1 with mask := maskOf bad }
end

