-- ==== Sys2Proof/Laws/State.lean ====
section
/-!
SUPPORT. The fields of the state and of a group after each named update: one lemma for each field and update, so that no later proof unfolds
a record update.
-/

namespace Sys2Proof.Machine

/-! ### Updates of the state -/

@[simp] theorem State.setGroup_dev (s : State) (g : Group) : (s.setGroup g).dev = s.dev := rfl
@[simp] theorem State.setGroup_mem (s : State) (g : Group) : (s.setGroup g).mem = s.mem := rfl
@[simp] theorem State.setGroup_memErr (s : State) (g : Group) : (s.setGroup g).memErr = s.memErr := rfl
@[simp] theorem State.setGroup_parts (s : State) (g : Group) : (s.setGroup g).parts = s.parts := rfl
@[simp] theorem State.setGroup_grids (s : State) (g : Group) : (s.setGroup g).grids = s.grids := rfl
@[simp] theorem State.setGroup_teams (s : State) (g : Group) : (s.setGroup g).teams = s.teams := rfl
@[simp] theorem State.setGroup_groups (s : State) (g : Group) : (s.setGroup g).groups = putBy Group.id s.groups g := rfl
@[simp] theorem State.setGroup_fifos (s : State) (g : Group) : (s.setGroup g).fifos = s.fifos := rfl
@[simp] theorem State.setGroup_feeders (s : State) (g : Group) : (s.setGroup g).feeders = s.feeders := rfl
@[simp] theorem State.setGroup_copies (s : State) (g : Group) : (s.setGroup g).copies = s.copies := rfl
@[simp] theorem State.setGroup_mats (s : State) (g : Group) : (s.setGroup g).mats = s.mats := rfl
@[simp] theorem State.setGroup_latches (s : State) (g : Group) : (s.setGroup g).latches = s.latches := rfl
@[simp] theorem State.setGroup_homes (s : State) (g : Group) : (s.setGroup g).homes = s.homes := rfl
@[simp] theorem State.setGroup_flight (s : State) (g : Group) : (s.setGroup g).flight = s.flight := rfl
@[simp] theorem State.setGroup_shadow (s : State) (g : Group) : (s.setGroup g).shadow = s.shadow := rfl
@[simp] theorem State.setGroup_images (s : State) (g : Group) : (s.setGroup g).images = s.images := rfl
@[simp] theorem State.setGroup_agenda (s : State) (g : Group) : (s.setGroup g).agenda = s.agenda := rfl
@[simp] theorem State.setGroup_cur (s : State) (g : Group) : (s.setGroup g).cur = s.cur := rfl
@[simp] theorem State.setGroup_tick (s : State) (g : Group) : (s.setGroup g).tick = s.tick := rfl
@[simp] theorem State.setGroup_clock (s : State) (g : Group) : (s.setGroup g).clock = s.clock := rfl
@[simp] theorem State.setGroup_free (s : State) (g : Group) : (s.setGroup g).free = s.free := rfl
@[simp] theorem State.setGroup_nextId (s : State) (g : Group) : (s.setGroup g).nextId = s.nextId := rfl

@[simp] theorem State.setTeam_dev (s : State) (x : Team) : (s.setTeam x).dev = s.dev := rfl
@[simp] theorem State.setTeam_mem (s : State) (x : Team) : (s.setTeam x).mem = s.mem := rfl
@[simp] theorem State.setTeam_memErr (s : State) (x : Team) : (s.setTeam x).memErr = s.memErr := rfl
@[simp] theorem State.setTeam_parts (s : State) (x : Team) : (s.setTeam x).parts = s.parts := rfl
@[simp] theorem State.setTeam_grids (s : State) (x : Team) : (s.setTeam x).grids = s.grids := rfl
@[simp] theorem State.setTeam_teams (s : State) (x : Team) : (s.setTeam x).teams = putBy Team.id s.teams x := rfl
@[simp] theorem State.setTeam_groups (s : State) (x : Team) : (s.setTeam x).groups = s.groups := rfl
@[simp] theorem State.setTeam_fifos (s : State) (x : Team) : (s.setTeam x).fifos = s.fifos := rfl
@[simp] theorem State.setTeam_feeders (s : State) (x : Team) : (s.setTeam x).feeders = s.feeders := rfl
@[simp] theorem State.setTeam_copies (s : State) (x : Team) : (s.setTeam x).copies = s.copies := rfl
@[simp] theorem State.setTeam_mats (s : State) (x : Team) : (s.setTeam x).mats = s.mats := rfl
@[simp] theorem State.setTeam_latches (s : State) (x : Team) : (s.setTeam x).latches = s.latches := rfl
@[simp] theorem State.setTeam_homes (s : State) (x : Team) : (s.setTeam x).homes = s.homes := rfl
@[simp] theorem State.setTeam_flight (s : State) (x : Team) : (s.setTeam x).flight = s.flight := rfl
@[simp] theorem State.setTeam_shadow (s : State) (x : Team) : (s.setTeam x).shadow = s.shadow := rfl
@[simp] theorem State.setTeam_images (s : State) (x : Team) : (s.setTeam x).images = s.images := rfl
@[simp] theorem State.setTeam_agenda (s : State) (x : Team) : (s.setTeam x).agenda = s.agenda := rfl
@[simp] theorem State.setTeam_cur (s : State) (x : Team) : (s.setTeam x).cur = s.cur := rfl
@[simp] theorem State.setTeam_tick (s : State) (x : Team) : (s.setTeam x).tick = s.tick := rfl
@[simp] theorem State.setTeam_clock (s : State) (x : Team) : (s.setTeam x).clock = s.clock := rfl
@[simp] theorem State.setTeam_free (s : State) (x : Team) : (s.setTeam x).free = s.free := rfl
@[simp] theorem State.setTeam_nextId (s : State) (x : Team) : (s.setTeam x).nextId = s.nextId := rfl

@[simp] theorem State.setGrid_dev (s : State) (x : Grid) : (s.setGrid x).dev = s.dev := rfl
@[simp] theorem State.setGrid_mem (s : State) (x : Grid) : (s.setGrid x).mem = s.mem := rfl
@[simp] theorem State.setGrid_memErr (s : State) (x : Grid) : (s.setGrid x).memErr = s.memErr := rfl
@[simp] theorem State.setGrid_parts (s : State) (x : Grid) : (s.setGrid x).parts = s.parts := rfl
@[simp] theorem State.setGrid_grids (s : State) (x : Grid) : (s.setGrid x).grids = putBy Grid.id s.grids x := rfl
@[simp] theorem State.setGrid_teams (s : State) (x : Grid) : (s.setGrid x).teams = s.teams := rfl
@[simp] theorem State.setGrid_groups (s : State) (x : Grid) : (s.setGrid x).groups = s.groups := rfl
@[simp] theorem State.setGrid_fifos (s : State) (x : Grid) : (s.setGrid x).fifos = s.fifos := rfl
@[simp] theorem State.setGrid_feeders (s : State) (x : Grid) : (s.setGrid x).feeders = s.feeders := rfl
@[simp] theorem State.setGrid_copies (s : State) (x : Grid) : (s.setGrid x).copies = s.copies := rfl
@[simp] theorem State.setGrid_mats (s : State) (x : Grid) : (s.setGrid x).mats = s.mats := rfl
@[simp] theorem State.setGrid_latches (s : State) (x : Grid) : (s.setGrid x).latches = s.latches := rfl
@[simp] theorem State.setGrid_homes (s : State) (x : Grid) : (s.setGrid x).homes = s.homes := rfl
@[simp] theorem State.setGrid_flight (s : State) (x : Grid) : (s.setGrid x).flight = s.flight := rfl
@[simp] theorem State.setGrid_shadow (s : State) (x : Grid) : (s.setGrid x).shadow = s.shadow := rfl
@[simp] theorem State.setGrid_images (s : State) (x : Grid) : (s.setGrid x).images = s.images := rfl
@[simp] theorem State.setGrid_agenda (s : State) (x : Grid) : (s.setGrid x).agenda = s.agenda := rfl
@[simp] theorem State.setGrid_cur (s : State) (x : Grid) : (s.setGrid x).cur = s.cur := rfl
@[simp] theorem State.setGrid_tick (s : State) (x : Grid) : (s.setGrid x).tick = s.tick := rfl
@[simp] theorem State.setGrid_clock (s : State) (x : Grid) : (s.setGrid x).clock = s.clock := rfl
@[simp] theorem State.setGrid_free (s : State) (x : Grid) : (s.setGrid x).free = s.free := rfl
@[simp] theorem State.setGrid_nextId (s : State) (x : Grid) : (s.setGrid x).nextId = s.nextId := rfl

@[simp] theorem State.setPart_dev (s : State) (x : Part) : (s.setPart x).dev = s.dev := rfl
@[simp] theorem State.setPart_mem (s : State) (x : Part) : (s.setPart x).mem = s.mem := rfl
@[simp] theorem State.setPart_memErr (s : State) (x : Part) : (s.setPart x).memErr = s.memErr := rfl
@[simp] theorem State.setPart_parts (s : State) (x : Part) : (s.setPart x).parts = putBy Part.id s.parts x := rfl
@[simp] theorem State.setPart_grids (s : State) (x : Part) : (s.setPart x).grids = s.grids := rfl
@[simp] theorem State.setPart_teams (s : State) (x : Part) : (s.setPart x).teams = s.teams := rfl
@[simp] theorem State.setPart_groups (s : State) (x : Part) : (s.setPart x).groups = s.groups := rfl
@[simp] theorem State.setPart_fifos (s : State) (x : Part) : (s.setPart x).fifos = s.fifos := rfl
@[simp] theorem State.setPart_feeders (s : State) (x : Part) : (s.setPart x).feeders = s.feeders := rfl
@[simp] theorem State.setPart_copies (s : State) (x : Part) : (s.setPart x).copies = s.copies := rfl
@[simp] theorem State.setPart_mats (s : State) (x : Part) : (s.setPart x).mats = s.mats := rfl
@[simp] theorem State.setPart_latches (s : State) (x : Part) : (s.setPart x).latches = s.latches := rfl
@[simp] theorem State.setPart_homes (s : State) (x : Part) : (s.setPart x).homes = s.homes := rfl
@[simp] theorem State.setPart_flight (s : State) (x : Part) : (s.setPart x).flight = s.flight := rfl
@[simp] theorem State.setPart_shadow (s : State) (x : Part) : (s.setPart x).shadow = s.shadow := rfl
@[simp] theorem State.setPart_images (s : State) (x : Part) : (s.setPart x).images = s.images := rfl
@[simp] theorem State.setPart_agenda (s : State) (x : Part) : (s.setPart x).agenda = s.agenda := rfl
@[simp] theorem State.setPart_cur (s : State) (x : Part) : (s.setPart x).cur = s.cur := rfl
@[simp] theorem State.setPart_tick (s : State) (x : Part) : (s.setPart x).tick = s.tick := rfl
@[simp] theorem State.setPart_clock (s : State) (x : Part) : (s.setPart x).clock = s.clock := rfl
@[simp] theorem State.setPart_free (s : State) (x : Part) : (s.setPart x).free = s.free := rfl
@[simp] theorem State.setPart_nextId (s : State) (x : Part) : (s.setPart x).nextId = s.nextId := rfl

@[simp] theorem State.setHome_dev (s : State) (x : Home) : (s.setHome x).dev = s.dev := rfl
@[simp] theorem State.setHome_mem (s : State) (x : Home) : (s.setHome x).mem = s.mem := rfl
@[simp] theorem State.setHome_memErr (s : State) (x : Home) : (s.setHome x).memErr = s.memErr := rfl
@[simp] theorem State.setHome_parts (s : State) (x : Home) : (s.setHome x).parts = s.parts := rfl
@[simp] theorem State.setHome_grids (s : State) (x : Home) : (s.setHome x).grids = s.grids := rfl
@[simp] theorem State.setHome_teams (s : State) (x : Home) : (s.setHome x).teams = s.teams := rfl
@[simp] theorem State.setHome_groups (s : State) (x : Home) : (s.setHome x).groups = s.groups := rfl
@[simp] theorem State.setHome_fifos (s : State) (x : Home) : (s.setHome x).fifos = s.fifos := rfl
@[simp] theorem State.setHome_feeders (s : State) (x : Home) : (s.setHome x).feeders = s.feeders := rfl
@[simp] theorem State.setHome_copies (s : State) (x : Home) : (s.setHome x).copies = s.copies := rfl
@[simp] theorem State.setHome_mats (s : State) (x : Home) : (s.setHome x).mats = s.mats := rfl
@[simp] theorem State.setHome_latches (s : State) (x : Home) : (s.setHome x).latches = s.latches := rfl
@[simp] theorem State.setHome_homes (s : State) (x : Home) : (s.setHome x).homes = putBy Home.num s.homes x := rfl
@[simp] theorem State.setHome_flight (s : State) (x : Home) : (s.setHome x).flight = s.flight := rfl
@[simp] theorem State.setHome_shadow (s : State) (x : Home) : (s.setHome x).shadow = s.shadow := rfl
@[simp] theorem State.setHome_images (s : State) (x : Home) : (s.setHome x).images = s.images := rfl
@[simp] theorem State.setHome_agenda (s : State) (x : Home) : (s.setHome x).agenda = s.agenda := rfl
@[simp] theorem State.setHome_cur (s : State) (x : Home) : (s.setHome x).cur = s.cur := rfl
@[simp] theorem State.setHome_tick (s : State) (x : Home) : (s.setHome x).tick = s.tick := rfl
@[simp] theorem State.setHome_clock (s : State) (x : Home) : (s.setHome x).clock = s.clock := rfl
@[simp] theorem State.setHome_free (s : State) (x : Home) : (s.setHome x).free = s.free := rfl
@[simp] theorem State.setHome_nextId (s : State) (x : Home) : (s.setHome x).nextId = s.nextId := rfl

@[simp] theorem State.modGroup_dev (s : State) (k : Nat) (h : Group → Group) : (s.modGroup k h).dev = s.dev := rfl
@[simp] theorem State.modGroup_mem (s : State) (k : Nat) (h : Group → Group) : (s.modGroup k h).mem = s.mem := rfl
@[simp] theorem State.modGroup_memErr (s : State) (k : Nat) (h : Group → Group) : (s.modGroup k h).memErr = s.memErr := rfl
@[simp] theorem State.modGroup_parts (s : State) (k : Nat) (h : Group → Group) : (s.modGroup k h).parts = s.parts := rfl
@[simp] theorem State.modGroup_grids (s : State) (k : Nat) (h : Group → Group) : (s.modGroup k h).grids = s.grids := rfl
@[simp] theorem State.modGroup_teams (s : State) (k : Nat) (h : Group → Group) : (s.modGroup k h).teams = s.teams := rfl
@[simp] theorem State.modGroup_groups (s : State) (k : Nat) (h : Group → Group) : (s.modGroup k h).groups = modBy Group.id s.groups k h := rfl
@[simp] theorem State.modGroup_fifos (s : State) (k : Nat) (h : Group → Group) : (s.modGroup k h).fifos = s.fifos := rfl
@[simp] theorem State.modGroup_feeders (s : State) (k : Nat) (h : Group → Group) : (s.modGroup k h).feeders = s.feeders := rfl
@[simp] theorem State.modGroup_copies (s : State) (k : Nat) (h : Group → Group) : (s.modGroup k h).copies = s.copies := rfl
@[simp] theorem State.modGroup_mats (s : State) (k : Nat) (h : Group → Group) : (s.modGroup k h).mats = s.mats := rfl
@[simp] theorem State.modGroup_latches (s : State) (k : Nat) (h : Group → Group) : (s.modGroup k h).latches = s.latches := rfl
@[simp] theorem State.modGroup_homes (s : State) (k : Nat) (h : Group → Group) : (s.modGroup k h).homes = s.homes := rfl
@[simp] theorem State.modGroup_flight (s : State) (k : Nat) (h : Group → Group) : (s.modGroup k h).flight = s.flight := rfl
@[simp] theorem State.modGroup_shadow (s : State) (k : Nat) (h : Group → Group) : (s.modGroup k h).shadow = s.shadow := rfl
@[simp] theorem State.modGroup_images (s : State) (k : Nat) (h : Group → Group) : (s.modGroup k h).images = s.images := rfl
@[simp] theorem State.modGroup_agenda (s : State) (k : Nat) (h : Group → Group) : (s.modGroup k h).agenda = s.agenda := rfl
@[simp] theorem State.modGroup_cur (s : State) (k : Nat) (h : Group → Group) : (s.modGroup k h).cur = s.cur := rfl
@[simp] theorem State.modGroup_tick (s : State) (k : Nat) (h : Group → Group) : (s.modGroup k h).tick = s.tick := rfl
@[simp] theorem State.modGroup_clock (s : State) (k : Nat) (h : Group → Group) : (s.modGroup k h).clock = s.clock := rfl
@[simp] theorem State.modGroup_free (s : State) (k : Nat) (h : Group → Group) : (s.modGroup k h).free = s.free := rfl
@[simp] theorem State.modGroup_nextId (s : State) (k : Nat) (h : Group → Group) : (s.modGroup k h).nextId = s.nextId := rfl

@[simp] theorem State.modTeam_dev (s : State) (k : Nat) (h : Team → Team) : (s.modTeam k h).dev = s.dev := rfl
@[simp] theorem State.modTeam_mem (s : State) (k : Nat) (h : Team → Team) : (s.modTeam k h).mem = s.mem := rfl
@[simp] theorem State.modTeam_memErr (s : State) (k : Nat) (h : Team → Team) : (s.modTeam k h).memErr = s.memErr := rfl
@[simp] theorem State.modTeam_parts (s : State) (k : Nat) (h : Team → Team) : (s.modTeam k h).parts = s.parts := rfl
@[simp] theorem State.modTeam_grids (s : State) (k : Nat) (h : Team → Team) : (s.modTeam k h).grids = s.grids := rfl
@[simp] theorem State.modTeam_teams (s : State) (k : Nat) (h : Team → Team) : (s.modTeam k h).teams = modBy Team.id s.teams k h := rfl
@[simp] theorem State.modTeam_groups (s : State) (k : Nat) (h : Team → Team) : (s.modTeam k h).groups = s.groups := rfl
@[simp] theorem State.modTeam_fifos (s : State) (k : Nat) (h : Team → Team) : (s.modTeam k h).fifos = s.fifos := rfl
@[simp] theorem State.modTeam_feeders (s : State) (k : Nat) (h : Team → Team) : (s.modTeam k h).feeders = s.feeders := rfl
@[simp] theorem State.modTeam_copies (s : State) (k : Nat) (h : Team → Team) : (s.modTeam k h).copies = s.copies := rfl
@[simp] theorem State.modTeam_mats (s : State) (k : Nat) (h : Team → Team) : (s.modTeam k h).mats = s.mats := rfl
@[simp] theorem State.modTeam_latches (s : State) (k : Nat) (h : Team → Team) : (s.modTeam k h).latches = s.latches := rfl
@[simp] theorem State.modTeam_homes (s : State) (k : Nat) (h : Team → Team) : (s.modTeam k h).homes = s.homes := rfl
@[simp] theorem State.modTeam_flight (s : State) (k : Nat) (h : Team → Team) : (s.modTeam k h).flight = s.flight := rfl
@[simp] theorem State.modTeam_shadow (s : State) (k : Nat) (h : Team → Team) : (s.modTeam k h).shadow = s.shadow := rfl
@[simp] theorem State.modTeam_images (s : State) (k : Nat) (h : Team → Team) : (s.modTeam k h).images = s.images := rfl
@[simp] theorem State.modTeam_agenda (s : State) (k : Nat) (h : Team → Team) : (s.modTeam k h).agenda = s.agenda := rfl
@[simp] theorem State.modTeam_cur (s : State) (k : Nat) (h : Team → Team) : (s.modTeam k h).cur = s.cur := rfl
@[simp] theorem State.modTeam_tick (s : State) (k : Nat) (h : Team → Team) : (s.modTeam k h).tick = s.tick := rfl
@[simp] theorem State.modTeam_clock (s : State) (k : Nat) (h : Team → Team) : (s.modTeam k h).clock = s.clock := rfl
@[simp] theorem State.modTeam_free (s : State) (k : Nat) (h : Team → Team) : (s.modTeam k h).free = s.free := rfl
@[simp] theorem State.modTeam_nextId (s : State) (k : Nat) (h : Team → Team) : (s.modTeam k h).nextId = s.nextId := rfl

@[simp] theorem State.modGrid_dev (s : State) (k : Nat) (h : Grid → Grid) : (s.modGrid k h).dev = s.dev := rfl
@[simp] theorem State.modGrid_mem (s : State) (k : Nat) (h : Grid → Grid) : (s.modGrid k h).mem = s.mem := rfl
@[simp] theorem State.modGrid_memErr (s : State) (k : Nat) (h : Grid → Grid) : (s.modGrid k h).memErr = s.memErr := rfl
@[simp] theorem State.modGrid_parts (s : State) (k : Nat) (h : Grid → Grid) : (s.modGrid k h).parts = s.parts := rfl
@[simp] theorem State.modGrid_grids (s : State) (k : Nat) (h : Grid → Grid) : (s.modGrid k h).grids = modBy Grid.id s.grids k h := rfl
@[simp] theorem State.modGrid_teams (s : State) (k : Nat) (h : Grid → Grid) : (s.modGrid k h).teams = s.teams := rfl
@[simp] theorem State.modGrid_groups (s : State) (k : Nat) (h : Grid → Grid) : (s.modGrid k h).groups = s.groups := rfl
@[simp] theorem State.modGrid_fifos (s : State) (k : Nat) (h : Grid → Grid) : (s.modGrid k h).fifos = s.fifos := rfl
@[simp] theorem State.modGrid_feeders (s : State) (k : Nat) (h : Grid → Grid) : (s.modGrid k h).feeders = s.feeders := rfl
@[simp] theorem State.modGrid_copies (s : State) (k : Nat) (h : Grid → Grid) : (s.modGrid k h).copies = s.copies := rfl
@[simp] theorem State.modGrid_mats (s : State) (k : Nat) (h : Grid → Grid) : (s.modGrid k h).mats = s.mats := rfl
@[simp] theorem State.modGrid_latches (s : State) (k : Nat) (h : Grid → Grid) : (s.modGrid k h).latches = s.latches := rfl
@[simp] theorem State.modGrid_homes (s : State) (k : Nat) (h : Grid → Grid) : (s.modGrid k h).homes = s.homes := rfl
@[simp] theorem State.modGrid_flight (s : State) (k : Nat) (h : Grid → Grid) : (s.modGrid k h).flight = s.flight := rfl
@[simp] theorem State.modGrid_shadow (s : State) (k : Nat) (h : Grid → Grid) : (s.modGrid k h).shadow = s.shadow := rfl
@[simp] theorem State.modGrid_images (s : State) (k : Nat) (h : Grid → Grid) : (s.modGrid k h).images = s.images := rfl
@[simp] theorem State.modGrid_agenda (s : State) (k : Nat) (h : Grid → Grid) : (s.modGrid k h).agenda = s.agenda := rfl
@[simp] theorem State.modGrid_cur (s : State) (k : Nat) (h : Grid → Grid) : (s.modGrid k h).cur = s.cur := rfl
@[simp] theorem State.modGrid_tick (s : State) (k : Nat) (h : Grid → Grid) : (s.modGrid k h).tick = s.tick := rfl
@[simp] theorem State.modGrid_clock (s : State) (k : Nat) (h : Grid → Grid) : (s.modGrid k h).clock = s.clock := rfl
@[simp] theorem State.modGrid_free (s : State) (k : Nat) (h : Grid → Grid) : (s.modGrid k h).free = s.free := rfl
@[simp] theorem State.modGrid_nextId (s : State) (k : Nat) (h : Grid → Grid) : (s.modGrid k h).nextId = s.nextId := rfl

@[simp] theorem State.modPart_dev (s : State) (k : Nat) (h : Part → Part) : (s.modPart k h).dev = s.dev := rfl
@[simp] theorem State.modPart_mem (s : State) (k : Nat) (h : Part → Part) : (s.modPart k h).mem = s.mem := rfl
@[simp] theorem State.modPart_memErr (s : State) (k : Nat) (h : Part → Part) : (s.modPart k h).memErr = s.memErr := rfl
@[simp] theorem State.modPart_parts (s : State) (k : Nat) (h : Part → Part) : (s.modPart k h).parts = modBy Part.id s.parts k h := rfl
@[simp] theorem State.modPart_grids (s : State) (k : Nat) (h : Part → Part) : (s.modPart k h).grids = s.grids := rfl
@[simp] theorem State.modPart_teams (s : State) (k : Nat) (h : Part → Part) : (s.modPart k h).teams = s.teams := rfl
@[simp] theorem State.modPart_groups (s : State) (k : Nat) (h : Part → Part) : (s.modPart k h).groups = s.groups := rfl
@[simp] theorem State.modPart_fifos (s : State) (k : Nat) (h : Part → Part) : (s.modPart k h).fifos = s.fifos := rfl
@[simp] theorem State.modPart_feeders (s : State) (k : Nat) (h : Part → Part) : (s.modPart k h).feeders = s.feeders := rfl
@[simp] theorem State.modPart_copies (s : State) (k : Nat) (h : Part → Part) : (s.modPart k h).copies = s.copies := rfl
@[simp] theorem State.modPart_mats (s : State) (k : Nat) (h : Part → Part) : (s.modPart k h).mats = s.mats := rfl
@[simp] theorem State.modPart_latches (s : State) (k : Nat) (h : Part → Part) : (s.modPart k h).latches = s.latches := rfl
@[simp] theorem State.modPart_homes (s : State) (k : Nat) (h : Part → Part) : (s.modPart k h).homes = s.homes := rfl
@[simp] theorem State.modPart_flight (s : State) (k : Nat) (h : Part → Part) : (s.modPart k h).flight = s.flight := rfl
@[simp] theorem State.modPart_shadow (s : State) (k : Nat) (h : Part → Part) : (s.modPart k h).shadow = s.shadow := rfl
@[simp] theorem State.modPart_images (s : State) (k : Nat) (h : Part → Part) : (s.modPart k h).images = s.images := rfl
@[simp] theorem State.modPart_agenda (s : State) (k : Nat) (h : Part → Part) : (s.modPart k h).agenda = s.agenda := rfl
@[simp] theorem State.modPart_cur (s : State) (k : Nat) (h : Part → Part) : (s.modPart k h).cur = s.cur := rfl
@[simp] theorem State.modPart_tick (s : State) (k : Nat) (h : Part → Part) : (s.modPart k h).tick = s.tick := rfl
@[simp] theorem State.modPart_clock (s : State) (k : Nat) (h : Part → Part) : (s.modPart k h).clock = s.clock := rfl
@[simp] theorem State.modPart_free (s : State) (k : Nat) (h : Part → Part) : (s.modPart k h).free = s.free := rfl
@[simp] theorem State.modPart_nextId (s : State) (k : Nat) (h : Part → Part) : (s.modPart k h).nextId = s.nextId := rfl

@[simp] theorem State.modHome_dev (s : State) (k : Nat) (h : Home → Home) : (s.modHome k h).dev = s.dev := rfl
@[simp] theorem State.modHome_mem (s : State) (k : Nat) (h : Home → Home) : (s.modHome k h).mem = s.mem := rfl
@[simp] theorem State.modHome_memErr (s : State) (k : Nat) (h : Home → Home) : (s.modHome k h).memErr = s.memErr := rfl
@[simp] theorem State.modHome_parts (s : State) (k : Nat) (h : Home → Home) : (s.modHome k h).parts = s.parts := rfl
@[simp] theorem State.modHome_grids (s : State) (k : Nat) (h : Home → Home) : (s.modHome k h).grids = s.grids := rfl
@[simp] theorem State.modHome_teams (s : State) (k : Nat) (h : Home → Home) : (s.modHome k h).teams = s.teams := rfl
@[simp] theorem State.modHome_groups (s : State) (k : Nat) (h : Home → Home) : (s.modHome k h).groups = s.groups := rfl
@[simp] theorem State.modHome_fifos (s : State) (k : Nat) (h : Home → Home) : (s.modHome k h).fifos = s.fifos := rfl
@[simp] theorem State.modHome_feeders (s : State) (k : Nat) (h : Home → Home) : (s.modHome k h).feeders = s.feeders := rfl
@[simp] theorem State.modHome_copies (s : State) (k : Nat) (h : Home → Home) : (s.modHome k h).copies = s.copies := rfl
@[simp] theorem State.modHome_mats (s : State) (k : Nat) (h : Home → Home) : (s.modHome k h).mats = s.mats := rfl
@[simp] theorem State.modHome_latches (s : State) (k : Nat) (h : Home → Home) : (s.modHome k h).latches = s.latches := rfl
@[simp] theorem State.modHome_homes (s : State) (k : Nat) (h : Home → Home) : (s.modHome k h).homes = modBy Home.num s.homes k h := rfl
@[simp] theorem State.modHome_flight (s : State) (k : Nat) (h : Home → Home) : (s.modHome k h).flight = s.flight := rfl
@[simp] theorem State.modHome_shadow (s : State) (k : Nat) (h : Home → Home) : (s.modHome k h).shadow = s.shadow := rfl
@[simp] theorem State.modHome_images (s : State) (k : Nat) (h : Home → Home) : (s.modHome k h).images = s.images := rfl
@[simp] theorem State.modHome_agenda (s : State) (k : Nat) (h : Home → Home) : (s.modHome k h).agenda = s.agenda := rfl
@[simp] theorem State.modHome_cur (s : State) (k : Nat) (h : Home → Home) : (s.modHome k h).cur = s.cur := rfl
@[simp] theorem State.modHome_tick (s : State) (k : Nat) (h : Home → Home) : (s.modHome k h).tick = s.tick := rfl
@[simp] theorem State.modHome_clock (s : State) (k : Nat) (h : Home → Home) : (s.modHome k h).clock = s.clock := rfl
@[simp] theorem State.modHome_free (s : State) (k : Nat) (h : Home → Home) : (s.modHome k h).free = s.free := rfl
@[simp] theorem State.modHome_nextId (s : State) (k : Nat) (h : Home → Home) : (s.modHome k h).nextId = s.nextId := rfl

@[simp] theorem State.count_mem (s : State) (kind unit reg n : Nat) : (s.count kind unit reg n).mem = s.mem := rfl
@[simp] theorem State.count_memErr (s : State) (kind unit reg n : Nat) : (s.count kind unit reg n).memErr = s.memErr := rfl
@[simp] theorem State.count_parts (s : State) (kind unit reg n : Nat) : (s.count kind unit reg n).parts = s.parts := rfl
@[simp] theorem State.count_grids (s : State) (kind unit reg n : Nat) : (s.count kind unit reg n).grids = s.grids := rfl
@[simp] theorem State.count_teams (s : State) (kind unit reg n : Nat) : (s.count kind unit reg n).teams = s.teams := rfl
@[simp] theorem State.count_groups (s : State) (kind unit reg n : Nat) : (s.count kind unit reg n).groups = s.groups := rfl
@[simp] theorem State.count_fifos (s : State) (kind unit reg n : Nat) : (s.count kind unit reg n).fifos = s.fifos := rfl
@[simp] theorem State.count_feeders (s : State) (kind unit reg n : Nat) : (s.count kind unit reg n).feeders = s.feeders := rfl
@[simp] theorem State.count_copies (s : State) (kind unit reg n : Nat) : (s.count kind unit reg n).copies = s.copies := rfl
@[simp] theorem State.count_mats (s : State) (kind unit reg n : Nat) : (s.count kind unit reg n).mats = s.mats := rfl
@[simp] theorem State.count_latches (s : State) (kind unit reg n : Nat) : (s.count kind unit reg n).latches = s.latches := rfl
@[simp] theorem State.count_homes (s : State) (kind unit reg n : Nat) : (s.count kind unit reg n).homes = s.homes := rfl
@[simp] theorem State.count_flight (s : State) (kind unit reg n : Nat) : (s.count kind unit reg n).flight = s.flight := rfl
@[simp] theorem State.count_shadow (s : State) (kind unit reg n : Nat) : (s.count kind unit reg n).shadow = s.shadow := rfl
@[simp] theorem State.count_images (s : State) (kind unit reg n : Nat) : (s.count kind unit reg n).images = s.images := rfl
@[simp] theorem State.count_agenda (s : State) (kind unit reg n : Nat) : (s.count kind unit reg n).agenda = s.agenda := rfl
@[simp] theorem State.count_cur (s : State) (kind unit reg n : Nat) : (s.count kind unit reg n).cur = s.cur := rfl
@[simp] theorem State.count_tick (s : State) (kind unit reg n : Nat) : (s.count kind unit reg n).tick = s.tick := rfl
@[simp] theorem State.count_clock (s : State) (kind unit reg n : Nat) : (s.count kind unit reg n).clock = s.clock := rfl
@[simp] theorem State.count_free (s : State) (kind unit reg n : Nat) : (s.count kind unit reg n).free = s.free := rfl
@[simp] theorem State.count_nextId (s : State) (kind unit reg n : Nat) : (s.count kind unit reg n).nextId = s.nextId := rfl

@[simp] theorem State.fresh_dev (s : State) : s.fresh.2.dev = s.dev := rfl
@[simp] theorem State.fresh_mem (s : State) : s.fresh.2.mem = s.mem := rfl
@[simp] theorem State.fresh_memErr (s : State) : s.fresh.2.memErr = s.memErr := rfl
@[simp] theorem State.fresh_parts (s : State) : s.fresh.2.parts = s.parts := rfl
@[simp] theorem State.fresh_grids (s : State) : s.fresh.2.grids = s.grids := rfl
@[simp] theorem State.fresh_teams (s : State) : s.fresh.2.teams = s.teams := rfl
@[simp] theorem State.fresh_groups (s : State) : s.fresh.2.groups = s.groups := rfl
@[simp] theorem State.fresh_fifos (s : State) : s.fresh.2.fifos = s.fifos := rfl
@[simp] theorem State.fresh_feeders (s : State) : s.fresh.2.feeders = s.feeders := rfl
@[simp] theorem State.fresh_copies (s : State) : s.fresh.2.copies = s.copies := rfl
@[simp] theorem State.fresh_mats (s : State) : s.fresh.2.mats = s.mats := rfl
@[simp] theorem State.fresh_latches (s : State) : s.fresh.2.latches = s.latches := rfl
@[simp] theorem State.fresh_homes (s : State) : s.fresh.2.homes = s.homes := rfl
@[simp] theorem State.fresh_flight (s : State) : s.fresh.2.flight = s.flight := rfl
@[simp] theorem State.fresh_shadow (s : State) : s.fresh.2.shadow = s.shadow := rfl
@[simp] theorem State.fresh_images (s : State) : s.fresh.2.images = s.images := rfl
@[simp] theorem State.fresh_agenda (s : State) : s.fresh.2.agenda = s.agenda := rfl
@[simp] theorem State.fresh_cur (s : State) : s.fresh.2.cur = s.cur := rfl
@[simp] theorem State.fresh_tick (s : State) : s.fresh.2.tick = s.tick := rfl
@[simp] theorem State.fresh_clock (s : State) : s.fresh.2.clock = s.clock := rfl
@[simp] theorem State.fresh_free (s : State) : s.fresh.2.free = s.free := rfl
@[simp] theorem State.fresh_nextId (s : State) : s.fresh.2.nextId = s.nextId + 1 := rfl
@[simp] theorem State.fresh_fst (s : State) : s.fresh.1 = s.nextId := rfl

/-! ### Updates of a group -/

@[simp] theorem Group.setFrag_id (g : Group) (f : Frag) : (g.setFrag f).id = g.id := rfl
@[simp] theorem Group.setFrag_role (g : Group) (f : Frag) : (g.setFrag f).role = g.role := rfl
@[simp] theorem Group.setFrag_part (g : Group) (f : Frag) : (g.setFrag f).part = g.part := rfl
@[simp] theorem Group.setFrag_team (g : Group) (f : Frag) : (g.setFrag f).team = g.team := rfl
@[simp] theorem Group.setFrag_num (g : Group) (f : Frag) : (g.setFrag f).num = g.num := rfl
@[simp] theorem Group.setFrag_quadrant (g : Group) (f : Frag) : (g.setFrag f).quadrant = g.quadrant := rfl
@[simp] theorem Group.setFrag_slot (g : Group) (f : Frag) : (g.setFrag f).slot = g.slot := rfl
@[simp] theorem Group.setFrag_age (g : Group) (f : Frag) : (g.setFrag f).age = g.age := rfl
@[simp] theorem Group.setFrag_exited (g : Group) (f : Frag) : (g.setFrag f).exited = g.exited := rfl
@[simp] theorem Group.setFrag_v (g : Group) (f : Frag) : (g.setFrag f).v = g.v := rfl
@[simp] theorem Group.setFrag_s (g : Group) (f : Frag) : (g.setFrag f).s = g.s := rfl
@[simp] theorem Group.setFrag_p (g : Group) (f : Frag) : (g.setFrag f).p = g.p := rfl
@[simp] theorem Group.setFrag_acc (g : Group) (f : Frag) : (g.setFrag f).acc = g.acc := rfl
@[simp] theorem Group.setFrag_handles (g : Group) (f : Frag) : (g.setFrag f).handles = g.handles := rfl
@[simp] theorem Group.setFrag_loose (g : Group) (f : Frag) : (g.setFrag f).loose = g.loose := rfl
@[simp] theorem Group.setFrag_window (g : Group) (f : Frag) : (g.setFrag f).window = g.window := rfl
@[simp] theorem Group.setFrag_granules (g : Group) (f : Frag) : (g.setFrag f).granules = g.granules := rfl
@[simp] theorem Group.setFrag_tiles (g : Group) (f : Frag) : (g.setFrag f).tiles = g.tiles := rfl
@[simp] theorem Group.setFrag_handleN (g : Group) (f : Frag) : (g.setFrag f).handleN = g.handleN := rfl
@[simp] theorem Group.setFrag_gang (g : Group) (f : Frag) : (g.setFrag f).gang = g.gang := rfl
@[simp] theorem Group.setFrag_joints (g : Group) (f : Frag) : (g.setFrag f).joints = g.joints := rfl
@[simp] theorem Group.setFrag_rngkey (g : Group) (f : Frag) : (g.setFrag f).rngkey = g.rngkey := rfl
@[simp] theorem Group.setFrag_smscale (g : Group) (f : Frag) : (g.setFrag f).smscale = g.smscale := rfl
@[simp] theorem Group.setFrag_trap (g : Group) (f : Frag) : (g.setFrag f).trap = g.trap := rfl
@[simp] theorem Group.setFrag_regions (g : Group) (f : Frag) : (g.setFrag f).regions = g.regions := rfl
@[simp] theorem Group.setFrag_frags (g : Group) (f : Frag) : (g.setFrag f).frags = putBy Frag.id g.frags f := rfl
@[simp] theorem Group.setFrag_splits (g : Group) (f : Frag) : (g.setFrag f).splits = g.splits := rfl
@[simp] theorem Group.setFrag_handler (g : Group) (f : Frag) : (g.setFrag f).handler = g.handler := rfl
@[simp] theorem Group.setFrag_trapWait (g : Group) (f : Frag) : (g.setFrag f).trapWait = g.trapWait := rfl
@[simp] theorem Group.setFrag_stage (g : Group) (f : Frag) : (g.setFrag f).stage = g.stage := rfl
@[simp] theorem Group.setFrag_cmds (g : Group) (f : Frag) : (g.setFrag f).cmds = g.cmds := rfl
@[simp] theorem Group.setFrag_nextBatch (g : Group) (f : Frag) : (g.setFrag f).nextBatch = g.nextBatch := rfl
@[simp] theorem Group.setFrag_batches (g : Group) (f : Frag) : (g.setFrag f).batches = g.batches := rfl
@[simp] theorem Group.setFrag_narrow (g : Group) (f : Frag) : (g.setFrag f).narrow = g.narrow := rfl
@[simp] theorem Group.setFrag_logical (g : Group) (f : Frag) : (g.setFrag f).logical = g.logical := rfl
@[simp] theorem Group.setFrag_strays (g : Group) (f : Frag) : (g.setFrag f).strays = g.strays := rfl
@[simp] theorem Group.setFrag_wire (g : Group) (f : Frag) : (g.setFrag f).wire = g.wire := rfl
@[simp] theorem Group.setFrag_taken (g : Group) (f : Frag) : (g.setFrag f).taken = g.taken := rfl
@[simp] theorem Group.setFrag_turn (g : Group) (f : Frag) : (g.setFrag f).turn = g.turn := rfl

@[simp] theorem Group.modFrag_id (g : Group) (k : Nat) (h : Frag → Frag) : (g.modFrag k h).id = g.id := rfl
@[simp] theorem Group.modFrag_role (g : Group) (k : Nat) (h : Frag → Frag) : (g.modFrag k h).role = g.role := rfl
@[simp] theorem Group.modFrag_part (g : Group) (k : Nat) (h : Frag → Frag) : (g.modFrag k h).part = g.part := rfl
@[simp] theorem Group.modFrag_team (g : Group) (k : Nat) (h : Frag → Frag) : (g.modFrag k h).team = g.team := rfl
@[simp] theorem Group.modFrag_num (g : Group) (k : Nat) (h : Frag → Frag) : (g.modFrag k h).num = g.num := rfl
@[simp] theorem Group.modFrag_quadrant (g : Group) (k : Nat) (h : Frag → Frag) : (g.modFrag k h).quadrant = g.quadrant := rfl
@[simp] theorem Group.modFrag_slot (g : Group) (k : Nat) (h : Frag → Frag) : (g.modFrag k h).slot = g.slot := rfl
@[simp] theorem Group.modFrag_age (g : Group) (k : Nat) (h : Frag → Frag) : (g.modFrag k h).age = g.age := rfl
@[simp] theorem Group.modFrag_exited (g : Group) (k : Nat) (h : Frag → Frag) : (g.modFrag k h).exited = g.exited := rfl
@[simp] theorem Group.modFrag_v (g : Group) (k : Nat) (h : Frag → Frag) : (g.modFrag k h).v = g.v := rfl
@[simp] theorem Group.modFrag_s (g : Group) (k : Nat) (h : Frag → Frag) : (g.modFrag k h).s = g.s := rfl
@[simp] theorem Group.modFrag_p (g : Group) (k : Nat) (h : Frag → Frag) : (g.modFrag k h).p = g.p := rfl
@[simp] theorem Group.modFrag_acc (g : Group) (k : Nat) (h : Frag → Frag) : (g.modFrag k h).acc = g.acc := rfl
@[simp] theorem Group.modFrag_handles (g : Group) (k : Nat) (h : Frag → Frag) : (g.modFrag k h).handles = g.handles := rfl
@[simp] theorem Group.modFrag_loose (g : Group) (k : Nat) (h : Frag → Frag) : (g.modFrag k h).loose = g.loose := rfl
@[simp] theorem Group.modFrag_window (g : Group) (k : Nat) (h : Frag → Frag) : (g.modFrag k h).window = g.window := rfl
@[simp] theorem Group.modFrag_granules (g : Group) (k : Nat) (h : Frag → Frag) : (g.modFrag k h).granules = g.granules := rfl
@[simp] theorem Group.modFrag_tiles (g : Group) (k : Nat) (h : Frag → Frag) : (g.modFrag k h).tiles = g.tiles := rfl
@[simp] theorem Group.modFrag_handleN (g : Group) (k : Nat) (h : Frag → Frag) : (g.modFrag k h).handleN = g.handleN := rfl
@[simp] theorem Group.modFrag_gang (g : Group) (k : Nat) (h : Frag → Frag) : (g.modFrag k h).gang = g.gang := rfl
@[simp] theorem Group.modFrag_joints (g : Group) (k : Nat) (h : Frag → Frag) : (g.modFrag k h).joints = g.joints := rfl
@[simp] theorem Group.modFrag_rngkey (g : Group) (k : Nat) (h : Frag → Frag) : (g.modFrag k h).rngkey = g.rngkey := rfl
@[simp] theorem Group.modFrag_smscale (g : Group) (k : Nat) (h : Frag → Frag) : (g.modFrag k h).smscale = g.smscale := rfl
@[simp] theorem Group.modFrag_trap (g : Group) (k : Nat) (h : Frag → Frag) : (g.modFrag k h).trap = g.trap := rfl
@[simp] theorem Group.modFrag_regions (g : Group) (k : Nat) (h : Frag → Frag) : (g.modFrag k h).regions = g.regions := rfl
@[simp] theorem Group.modFrag_frags (g : Group) (k : Nat) (h : Frag → Frag) : (g.modFrag k h).frags = modBy Frag.id g.frags k h := rfl
@[simp] theorem Group.modFrag_splits (g : Group) (k : Nat) (h : Frag → Frag) : (g.modFrag k h).splits = g.splits := rfl
@[simp] theorem Group.modFrag_handler (g : Group) (k : Nat) (h : Frag → Frag) : (g.modFrag k h).handler = g.handler := rfl
@[simp] theorem Group.modFrag_trapWait (g : Group) (k : Nat) (h : Frag → Frag) : (g.modFrag k h).trapWait = g.trapWait := rfl
@[simp] theorem Group.modFrag_stage (g : Group) (k : Nat) (h : Frag → Frag) : (g.modFrag k h).stage = g.stage := rfl
@[simp] theorem Group.modFrag_cmds (g : Group) (k : Nat) (h : Frag → Frag) : (g.modFrag k h).cmds = g.cmds := rfl
@[simp] theorem Group.modFrag_nextBatch (g : Group) (k : Nat) (h : Frag → Frag) : (g.modFrag k h).nextBatch = g.nextBatch := rfl
@[simp] theorem Group.modFrag_batches (g : Group) (k : Nat) (h : Frag → Frag) : (g.modFrag k h).batches = g.batches := rfl
@[simp] theorem Group.modFrag_narrow (g : Group) (k : Nat) (h : Frag → Frag) : (g.modFrag k h).narrow = g.narrow := rfl
@[simp] theorem Group.modFrag_logical (g : Group) (k : Nat) (h : Frag → Frag) : (g.modFrag k h).logical = g.logical := rfl
@[simp] theorem Group.modFrag_strays (g : Group) (k : Nat) (h : Frag → Frag) : (g.modFrag k h).strays = g.strays := rfl
@[simp] theorem Group.modFrag_wire (g : Group) (k : Nat) (h : Frag → Frag) : (g.modFrag k h).wire = g.wire := rfl
@[simp] theorem Group.modFrag_taken (g : Group) (k : Nat) (h : Frag → Frag) : (g.modFrag k h).taken = g.taken := rfl
@[simp] theorem Group.modFrag_turn (g : Group) (k : Nat) (h : Frag → Frag) : (g.modFrag k h).turn = g.turn := rfl

@[simp] theorem Group.setS_id (g : Group) (n : Nat) (x : Word) : (g.setS n x).id = g.id := rfl
@[simp] theorem Group.setS_role (g : Group) (n : Nat) (x : Word) : (g.setS n x).role = g.role := rfl
@[simp] theorem Group.setS_part (g : Group) (n : Nat) (x : Word) : (g.setS n x).part = g.part := rfl
@[simp] theorem Group.setS_team (g : Group) (n : Nat) (x : Word) : (g.setS n x).team = g.team := rfl
@[simp] theorem Group.setS_num (g : Group) (n : Nat) (x : Word) : (g.setS n x).num = g.num := rfl
@[simp] theorem Group.setS_quadrant (g : Group) (n : Nat) (x : Word) : (g.setS n x).quadrant = g.quadrant := rfl
@[simp] theorem Group.setS_slot (g : Group) (n : Nat) (x : Word) : (g.setS n x).slot = g.slot := rfl
@[simp] theorem Group.setS_age (g : Group) (n : Nat) (x : Word) : (g.setS n x).age = g.age := rfl
@[simp] theorem Group.setS_exited (g : Group) (n : Nat) (x : Word) : (g.setS n x).exited = g.exited := rfl
@[simp] theorem Group.setS_v (g : Group) (n : Nat) (x : Word) : (g.setS n x).v = g.v := rfl
@[simp] theorem Group.setS_s (g : Group) (n : Nat) (x : Word) : (g.setS n x).s = sset 0 g.s n x := rfl
@[simp] theorem Group.setS_p (g : Group) (n : Nat) (x : Word) : (g.setS n x).p = g.p := rfl
@[simp] theorem Group.setS_acc (g : Group) (n : Nat) (x : Word) : (g.setS n x).acc = g.acc := rfl
@[simp] theorem Group.setS_handles (g : Group) (n : Nat) (x : Word) : (g.setS n x).handles = g.handles := rfl
@[simp] theorem Group.setS_loose (g : Group) (n : Nat) (x : Word) : (g.setS n x).loose = g.loose := rfl
@[simp] theorem Group.setS_window (g : Group) (n : Nat) (x : Word) : (g.setS n x).window = g.window := rfl
@[simp] theorem Group.setS_granules (g : Group) (n : Nat) (x : Word) : (g.setS n x).granules = g.granules := rfl
@[simp] theorem Group.setS_tiles (g : Group) (n : Nat) (x : Word) : (g.setS n x).tiles = g.tiles := rfl
@[simp] theorem Group.setS_handleN (g : Group) (n : Nat) (x : Word) : (g.setS n x).handleN = g.handleN := rfl
@[simp] theorem Group.setS_gang (g : Group) (n : Nat) (x : Word) : (g.setS n x).gang = g.gang := rfl
@[simp] theorem Group.setS_joints (g : Group) (n : Nat) (x : Word) : (g.setS n x).joints = g.joints := rfl
@[simp] theorem Group.setS_rngkey (g : Group) (n : Nat) (x : Word) : (g.setS n x).rngkey = g.rngkey := rfl
@[simp] theorem Group.setS_smscale (g : Group) (n : Nat) (x : Word) : (g.setS n x).smscale = g.smscale := rfl
@[simp] theorem Group.setS_trap (g : Group) (n : Nat) (x : Word) : (g.setS n x).trap = g.trap := rfl
@[simp] theorem Group.setS_regions (g : Group) (n : Nat) (x : Word) : (g.setS n x).regions = g.regions := rfl
@[simp] theorem Group.setS_frags (g : Group) (n : Nat) (x : Word) : (g.setS n x).frags = g.frags := rfl
@[simp] theorem Group.setS_splits (g : Group) (n : Nat) (x : Word) : (g.setS n x).splits = g.splits := rfl
@[simp] theorem Group.setS_handler (g : Group) (n : Nat) (x : Word) : (g.setS n x).handler = g.handler := rfl
@[simp] theorem Group.setS_trapWait (g : Group) (n : Nat) (x : Word) : (g.setS n x).trapWait = g.trapWait := rfl
@[simp] theorem Group.setS_stage (g : Group) (n : Nat) (x : Word) : (g.setS n x).stage = g.stage := rfl
@[simp] theorem Group.setS_cmds (g : Group) (n : Nat) (x : Word) : (g.setS n x).cmds = g.cmds := rfl
@[simp] theorem Group.setS_nextBatch (g : Group) (n : Nat) (x : Word) : (g.setS n x).nextBatch = g.nextBatch := rfl
@[simp] theorem Group.setS_batches (g : Group) (n : Nat) (x : Word) : (g.setS n x).batches = g.batches := rfl
@[simp] theorem Group.setS_narrow (g : Group) (n : Nat) (x : Word) : (g.setS n x).narrow = g.narrow := rfl
@[simp] theorem Group.setS_logical (g : Group) (n : Nat) (x : Word) : (g.setS n x).logical = g.logical := rfl
@[simp] theorem Group.setS_strays (g : Group) (n : Nat) (x : Word) : (g.setS n x).strays = g.strays := rfl
@[simp] theorem Group.setS_wire (g : Group) (n : Nat) (x : Word) : (g.setS n x).wire = g.wire := rfl
@[simp] theorem Group.setS_taken (g : Group) (n : Nat) (x : Word) : (g.setS n x).taken = g.taken := rfl
@[simp] theorem Group.setS_turn (g : Group) (n : Nat) (x : Word) : (g.setS n x).turn = g.turn := rfl

@[simp] theorem Group.setV_id (g : Group) (r i : Nat) (x : Word) : (g.setV r i x).id = g.id := rfl
@[simp] theorem Group.setV_role (g : Group) (r i : Nat) (x : Word) : (g.setV r i x).role = g.role := rfl
@[simp] theorem Group.setV_part (g : Group) (r i : Nat) (x : Word) : (g.setV r i x).part = g.part := rfl
@[simp] theorem Group.setV_team (g : Group) (r i : Nat) (x : Word) : (g.setV r i x).team = g.team := rfl
@[simp] theorem Group.setV_num (g : Group) (r i : Nat) (x : Word) : (g.setV r i x).num = g.num := rfl
@[simp] theorem Group.setV_quadrant (g : Group) (r i : Nat) (x : Word) : (g.setV r i x).quadrant = g.quadrant := rfl
@[simp] theorem Group.setV_slot (g : Group) (r i : Nat) (x : Word) : (g.setV r i x).slot = g.slot := rfl
@[simp] theorem Group.setV_age (g : Group) (r i : Nat) (x : Word) : (g.setV r i x).age = g.age := rfl
@[simp] theorem Group.setV_exited (g : Group) (r i : Nat) (x : Word) : (g.setV r i x).exited = g.exited := rfl
@[simp] theorem Group.setV_v (g : Group) (r i : Nat) (x : Word) : (g.setV r i x).v = sset 0 g.v (32 * r + i) x := rfl
@[simp] theorem Group.setV_s (g : Group) (r i : Nat) (x : Word) : (g.setV r i x).s = g.s := rfl
@[simp] theorem Group.setV_p (g : Group) (r i : Nat) (x : Word) : (g.setV r i x).p = g.p := rfl
@[simp] theorem Group.setV_acc (g : Group) (r i : Nat) (x : Word) : (g.setV r i x).acc = g.acc := rfl
@[simp] theorem Group.setV_handles (g : Group) (r i : Nat) (x : Word) : (g.setV r i x).handles = g.handles := rfl
@[simp] theorem Group.setV_loose (g : Group) (r i : Nat) (x : Word) : (g.setV r i x).loose = g.loose := rfl
@[simp] theorem Group.setV_window (g : Group) (r i : Nat) (x : Word) : (g.setV r i x).window = g.window := rfl
@[simp] theorem Group.setV_granules (g : Group) (r i : Nat) (x : Word) : (g.setV r i x).granules = g.granules := rfl
@[simp] theorem Group.setV_tiles (g : Group) (r i : Nat) (x : Word) : (g.setV r i x).tiles = g.tiles := rfl
@[simp] theorem Group.setV_handleN (g : Group) (r i : Nat) (x : Word) : (g.setV r i x).handleN = g.handleN := rfl
@[simp] theorem Group.setV_gang (g : Group) (r i : Nat) (x : Word) : (g.setV r i x).gang = g.gang := rfl
@[simp] theorem Group.setV_joints (g : Group) (r i : Nat) (x : Word) : (g.setV r i x).joints = g.joints := rfl
@[simp] theorem Group.setV_rngkey (g : Group) (r i : Nat) (x : Word) : (g.setV r i x).rngkey = g.rngkey := rfl
@[simp] theorem Group.setV_smscale (g : Group) (r i : Nat) (x : Word) : (g.setV r i x).smscale = g.smscale := rfl
@[simp] theorem Group.setV_trap (g : Group) (r i : Nat) (x : Word) : (g.setV r i x).trap = g.trap := rfl
@[simp] theorem Group.setV_regions (g : Group) (r i : Nat) (x : Word) : (g.setV r i x).regions = g.regions := rfl
@[simp] theorem Group.setV_frags (g : Group) (r i : Nat) (x : Word) : (g.setV r i x).frags = g.frags := rfl
@[simp] theorem Group.setV_splits (g : Group) (r i : Nat) (x : Word) : (g.setV r i x).splits = g.splits := rfl
@[simp] theorem Group.setV_handler (g : Group) (r i : Nat) (x : Word) : (g.setV r i x).handler = g.handler := rfl
@[simp] theorem Group.setV_trapWait (g : Group) (r i : Nat) (x : Word) : (g.setV r i x).trapWait = g.trapWait := rfl
@[simp] theorem Group.setV_stage (g : Group) (r i : Nat) (x : Word) : (g.setV r i x).stage = g.stage := rfl
@[simp] theorem Group.setV_cmds (g : Group) (r i : Nat) (x : Word) : (g.setV r i x).cmds = g.cmds := rfl
@[simp] theorem Group.setV_nextBatch (g : Group) (r i : Nat) (x : Word) : (g.setV r i x).nextBatch = g.nextBatch := rfl
@[simp] theorem Group.setV_batches (g : Group) (r i : Nat) (x : Word) : (g.setV r i x).batches = g.batches := rfl
@[simp] theorem Group.setV_narrow (g : Group) (r i : Nat) (x : Word) : (g.setV r i x).narrow = g.narrow := rfl
@[simp] theorem Group.setV_logical (g : Group) (r i : Nat) (x : Word) : (g.setV r i x).logical = g.logical := rfl
@[simp] theorem Group.setV_strays (g : Group) (r i : Nat) (x : Word) : (g.setV r i x).strays = g.strays := rfl
@[simp] theorem Group.setV_wire (g : Group) (r i : Nat) (x : Word) : (g.setV r i x).wire = g.wire := rfl
@[simp] theorem Group.setV_taken (g : Group) (r i : Nat) (x : Word) : (g.setV r i x).taken = g.taken := rfl
@[simp] theorem Group.setV_turn (g : Group) (r i : Nat) (x : Word) : (g.setV r i x).turn = g.turn := rfl

@[simp] theorem Group.setAcc_id (g : Group) (k row col : Nat) (x : Word) : (g.setAcc k row col x).id = g.id := rfl
@[simp] theorem Group.setAcc_role (g : Group) (k row col : Nat) (x : Word) : (g.setAcc k row col x).role = g.role := rfl
@[simp] theorem Group.setAcc_part (g : Group) (k row col : Nat) (x : Word) : (g.setAcc k row col x).part = g.part := rfl
@[simp] theorem Group.setAcc_team (g : Group) (k row col : Nat) (x : Word) : (g.setAcc k row col x).team = g.team := rfl
@[simp] theorem Group.setAcc_num (g : Group) (k row col : Nat) (x : Word) : (g.setAcc k row col x).num = g.num := rfl
@[simp] theorem Group.setAcc_quadrant (g : Group) (k row col : Nat) (x : Word) : (g.setAcc k row col x).quadrant = g.quadrant := rfl
@[simp] theorem Group.setAcc_slot (g : Group) (k row col : Nat) (x : Word) : (g.setAcc k row col x).slot = g.slot := rfl
@[simp] theorem Group.setAcc_age (g : Group) (k row col : Nat) (x : Word) : (g.setAcc k row col x).age = g.age := rfl
@[simp] theorem Group.setAcc_exited (g : Group) (k row col : Nat) (x : Word) : (g.setAcc k row col x).exited = g.exited := rfl
@[simp] theorem Group.setAcc_v (g : Group) (k row col : Nat) (x : Word) : (g.setAcc k row col x).v = g.v := rfl
@[simp] theorem Group.setAcc_s (g : Group) (k row col : Nat) (x : Word) : (g.setAcc k row col x).s = g.s := rfl
@[simp] theorem Group.setAcc_p (g : Group) (k row col : Nat) (x : Word) : (g.setAcc k row col x).p = g.p := rfl
@[simp] theorem Group.setAcc_acc (g : Group) (k row col : Nat) (x : Word) : (g.setAcc k row col x).acc = sset 0 g.acc (1024 * k + 32 * row + col) x := rfl
@[simp] theorem Group.setAcc_handles (g : Group) (k row col : Nat) (x : Word) : (g.setAcc k row col x).handles = g.handles := rfl
@[simp] theorem Group.setAcc_loose (g : Group) (k row col : Nat) (x : Word) : (g.setAcc k row col x).loose = g.loose := rfl
@[simp] theorem Group.setAcc_window (g : Group) (k row col : Nat) (x : Word) : (g.setAcc k row col x).window = g.window := rfl
@[simp] theorem Group.setAcc_granules (g : Group) (k row col : Nat) (x : Word) : (g.setAcc k row col x).granules = g.granules := rfl
@[simp] theorem Group.setAcc_tiles (g : Group) (k row col : Nat) (x : Word) : (g.setAcc k row col x).tiles = g.tiles := rfl
@[simp] theorem Group.setAcc_handleN (g : Group) (k row col : Nat) (x : Word) : (g.setAcc k row col x).handleN = g.handleN := rfl
@[simp] theorem Group.setAcc_gang (g : Group) (k row col : Nat) (x : Word) : (g.setAcc k row col x).gang = g.gang := rfl
@[simp] theorem Group.setAcc_joints (g : Group) (k row col : Nat) (x : Word) : (g.setAcc k row col x).joints = g.joints := rfl
@[simp] theorem Group.setAcc_rngkey (g : Group) (k row col : Nat) (x : Word) : (g.setAcc k row col x).rngkey = g.rngkey := rfl
@[simp] theorem Group.setAcc_smscale (g : Group) (k row col : Nat) (x : Word) : (g.setAcc k row col x).smscale = g.smscale := rfl
@[simp] theorem Group.setAcc_trap (g : Group) (k row col : Nat) (x : Word) : (g.setAcc k row col x).trap = g.trap := rfl
@[simp] theorem Group.setAcc_regions (g : Group) (k row col : Nat) (x : Word) : (g.setAcc k row col x).regions = g.regions := rfl
@[simp] theorem Group.setAcc_frags (g : Group) (k row col : Nat) (x : Word) : (g.setAcc k row col x).frags = g.frags := rfl
@[simp] theorem Group.setAcc_splits (g : Group) (k row col : Nat) (x : Word) : (g.setAcc k row col x).splits = g.splits := rfl
@[simp] theorem Group.setAcc_handler (g : Group) (k row col : Nat) (x : Word) : (g.setAcc k row col x).handler = g.handler := rfl
@[simp] theorem Group.setAcc_trapWait (g : Group) (k row col : Nat) (x : Word) : (g.setAcc k row col x).trapWait = g.trapWait := rfl
@[simp] theorem Group.setAcc_stage (g : Group) (k row col : Nat) (x : Word) : (g.setAcc k row col x).stage = g.stage := rfl
@[simp] theorem Group.setAcc_cmds (g : Group) (k row col : Nat) (x : Word) : (g.setAcc k row col x).cmds = g.cmds := rfl
@[simp] theorem Group.setAcc_nextBatch (g : Group) (k row col : Nat) (x : Word) : (g.setAcc k row col x).nextBatch = g.nextBatch := rfl
@[simp] theorem Group.setAcc_batches (g : Group) (k row col : Nat) (x : Word) : (g.setAcc k row col x).batches = g.batches := rfl
@[simp] theorem Group.setAcc_narrow (g : Group) (k row col : Nat) (x : Word) : (g.setAcc k row col x).narrow = g.narrow := rfl
@[simp] theorem Group.setAcc_logical (g : Group) (k row col : Nat) (x : Word) : (g.setAcc k row col x).logical = g.logical := rfl
@[simp] theorem Group.setAcc_strays (g : Group) (k row col : Nat) (x : Word) : (g.setAcc k row col x).strays = g.strays := rfl
@[simp] theorem Group.setAcc_wire (g : Group) (k row col : Nat) (x : Word) : (g.setAcc k row col x).wire = g.wire := rfl
@[simp] theorem Group.setAcc_taken (g : Group) (k row col : Nat) (x : Word) : (g.setAcc k row col x).taken = g.taken := rfl
@[simp] theorem Group.setAcc_turn (g : Group) (k row col : Nat) (x : Word) : (g.setAcc k row col x).turn = g.turn := rfl

@[simp] theorem Group.setPair_id (g : Group) (n : Nat) (x : Dword) : (g.setPair n x).id = g.id := rfl
@[simp] theorem Group.setPair_role (g : Group) (n : Nat) (x : Dword) : (g.setPair n x).role = g.role := rfl
@[simp] theorem Group.setPair_part (g : Group) (n : Nat) (x : Dword) : (g.setPair n x).part = g.part := rfl
@[simp] theorem Group.setPair_team (g : Group) (n : Nat) (x : Dword) : (g.setPair n x).team = g.team := rfl
@[simp] theorem Group.setPair_num (g : Group) (n : Nat) (x : Dword) : (g.setPair n x).num = g.num := rfl
@[simp] theorem Group.setPair_quadrant (g : Group) (n : Nat) (x : Dword) : (g.setPair n x).quadrant = g.quadrant := rfl
@[simp] theorem Group.setPair_slot (g : Group) (n : Nat) (x : Dword) : (g.setPair n x).slot = g.slot := rfl
@[simp] theorem Group.setPair_age (g : Group) (n : Nat) (x : Dword) : (g.setPair n x).age = g.age := rfl
@[simp] theorem Group.setPair_exited (g : Group) (n : Nat) (x : Dword) : (g.setPair n x).exited = g.exited := rfl
@[simp] theorem Group.setPair_v (g : Group) (n : Nat) (x : Dword) : (g.setPair n x).v = g.v := rfl
@[simp] theorem Group.setPair_p (g : Group) (n : Nat) (x : Dword) : (g.setPair n x).p = g.p := rfl
@[simp] theorem Group.setPair_acc (g : Group) (n : Nat) (x : Dword) : (g.setPair n x).acc = g.acc := rfl
@[simp] theorem Group.setPair_handles (g : Group) (n : Nat) (x : Dword) : (g.setPair n x).handles = g.handles := rfl
@[simp] theorem Group.setPair_loose (g : Group) (n : Nat) (x : Dword) : (g.setPair n x).loose = g.loose := rfl
@[simp] theorem Group.setPair_window (g : Group) (n : Nat) (x : Dword) : (g.setPair n x).window = g.window := rfl
@[simp] theorem Group.setPair_granules (g : Group) (n : Nat) (x : Dword) : (g.setPair n x).granules = g.granules := rfl
@[simp] theorem Group.setPair_tiles (g : Group) (n : Nat) (x : Dword) : (g.setPair n x).tiles = g.tiles := rfl
@[simp] theorem Group.setPair_handleN (g : Group) (n : Nat) (x : Dword) : (g.setPair n x).handleN = g.handleN := rfl
@[simp] theorem Group.setPair_gang (g : Group) (n : Nat) (x : Dword) : (g.setPair n x).gang = g.gang := rfl
@[simp] theorem Group.setPair_joints (g : Group) (n : Nat) (x : Dword) : (g.setPair n x).joints = g.joints := rfl
@[simp] theorem Group.setPair_rngkey (g : Group) (n : Nat) (x : Dword) : (g.setPair n x).rngkey = g.rngkey := rfl
@[simp] theorem Group.setPair_smscale (g : Group) (n : Nat) (x : Dword) : (g.setPair n x).smscale = g.smscale := rfl
@[simp] theorem Group.setPair_trap (g : Group) (n : Nat) (x : Dword) : (g.setPair n x).trap = g.trap := rfl
@[simp] theorem Group.setPair_regions (g : Group) (n : Nat) (x : Dword) : (g.setPair n x).regions = g.regions := rfl
@[simp] theorem Group.setPair_frags (g : Group) (n : Nat) (x : Dword) : (g.setPair n x).frags = g.frags := rfl
@[simp] theorem Group.setPair_splits (g : Group) (n : Nat) (x : Dword) : (g.setPair n x).splits = g.splits := rfl
@[simp] theorem Group.setPair_handler (g : Group) (n : Nat) (x : Dword) : (g.setPair n x).handler = g.handler := rfl
@[simp] theorem Group.setPair_trapWait (g : Group) (n : Nat) (x : Dword) : (g.setPair n x).trapWait = g.trapWait := rfl
@[simp] theorem Group.setPair_stage (g : Group) (n : Nat) (x : Dword) : (g.setPair n x).stage = g.stage := rfl
@[simp] theorem Group.setPair_cmds (g : Group) (n : Nat) (x : Dword) : (g.setPair n x).cmds = g.cmds := rfl
@[simp] theorem Group.setPair_nextBatch (g : Group) (n : Nat) (x : Dword) : (g.setPair n x).nextBatch = g.nextBatch := rfl
@[simp] theorem Group.setPair_batches (g : Group) (n : Nat) (x : Dword) : (g.setPair n x).batches = g.batches := rfl
@[simp] theorem Group.setPair_narrow (g : Group) (n : Nat) (x : Dword) : (g.setPair n x).narrow = g.narrow := rfl
@[simp] theorem Group.setPair_logical (g : Group) (n : Nat) (x : Dword) : (g.setPair n x).logical = g.logical := rfl
@[simp] theorem Group.setPair_strays (g : Group) (n : Nat) (x : Dword) : (g.setPair n x).strays = g.strays := rfl
@[simp] theorem Group.setPair_wire (g : Group) (n : Nat) (x : Dword) : (g.setPair n x).wire = g.wire := rfl
@[simp] theorem Group.setPair_taken (g : Group) (n : Nat) (x : Dword) : (g.setPair n x).taken = g.taken := rfl
@[simp] theorem Group.setPair_turn (g : Group) (n : Nat) (x : Dword) : (g.setPair n x).turn = g.turn := rfl

@[simp] theorem Group.setV64_id (g : Group) (r i : Nat) (x : Dword) : (g.setV64 r i x).id = g.id := rfl
@[simp] theorem Group.setV64_role (g : Group) (r i : Nat) (x : Dword) : (g.setV64 r i x).role = g.role := rfl
@[simp] theorem Group.setV64_part (g : Group) (r i : Nat) (x : Dword) : (g.setV64 r i x).part = g.part := rfl
@[simp] theorem Group.setV64_team (g : Group) (r i : Nat) (x : Dword) : (g.setV64 r i x).team = g.team := rfl
@[simp] theorem Group.setV64_num (g : Group) (r i : Nat) (x : Dword) : (g.setV64 r i x).num = g.num := rfl
@[simp] theorem Group.setV64_quadrant (g : Group) (r i : Nat) (x : Dword) : (g.setV64 r i x).quadrant = g.quadrant := rfl
@[simp] theorem Group.setV64_slot (g : Group) (r i : Nat) (x : Dword) : (g.setV64 r i x).slot = g.slot := rfl
@[simp] theorem Group.setV64_age (g : Group) (r i : Nat) (x : Dword) : (g.setV64 r i x).age = g.age := rfl
@[simp] theorem Group.setV64_exited (g : Group) (r i : Nat) (x : Dword) : (g.setV64 r i x).exited = g.exited := rfl
@[simp] theorem Group.setV64_s (g : Group) (r i : Nat) (x : Dword) : (g.setV64 r i x).s = g.s := rfl
@[simp] theorem Group.setV64_p (g : Group) (r i : Nat) (x : Dword) : (g.setV64 r i x).p = g.p := rfl
@[simp] theorem Group.setV64_acc (g : Group) (r i : Nat) (x : Dword) : (g.setV64 r i x).acc = g.acc := rfl
@[simp] theorem Group.setV64_handles (g : Group) (r i : Nat) (x : Dword) : (g.setV64 r i x).handles = g.handles := rfl
@[simp] theorem Group.setV64_loose (g : Group) (r i : Nat) (x : Dword) : (g.setV64 r i x).loose = g.loose := rfl
@[simp] theorem Group.setV64_window (g : Group) (r i : Nat) (x : Dword) : (g.setV64 r i x).window = g.window := rfl
@[simp] theorem Group.setV64_granules (g : Group) (r i : Nat) (x : Dword) : (g.setV64 r i x).granules = g.granules := rfl
@[simp] theorem Group.setV64_tiles (g : Group) (r i : Nat) (x : Dword) : (g.setV64 r i x).tiles = g.tiles := rfl
@[simp] theorem Group.setV64_handleN (g : Group) (r i : Nat) (x : Dword) : (g.setV64 r i x).handleN = g.handleN := rfl
@[simp] theorem Group.setV64_gang (g : Group) (r i : Nat) (x : Dword) : (g.setV64 r i x).gang = g.gang := rfl
@[simp] theorem Group.setV64_joints (g : Group) (r i : Nat) (x : Dword) : (g.setV64 r i x).joints = g.joints := rfl
@[simp] theorem Group.setV64_rngkey (g : Group) (r i : Nat) (x : Dword) : (g.setV64 r i x).rngkey = g.rngkey := rfl
@[simp] theorem Group.setV64_smscale (g : Group) (r i : Nat) (x : Dword) : (g.setV64 r i x).smscale = g.smscale := rfl
@[simp] theorem Group.setV64_trap (g : Group) (r i : Nat) (x : Dword) : (g.setV64 r i x).trap = g.trap := rfl
@[simp] theorem Group.setV64_regions (g : Group) (r i : Nat) (x : Dword) : (g.setV64 r i x).regions = g.regions := rfl
@[simp] theorem Group.setV64_frags (g : Group) (r i : Nat) (x : Dword) : (g.setV64 r i x).frags = g.frags := rfl
@[simp] theorem Group.setV64_splits (g : Group) (r i : Nat) (x : Dword) : (g.setV64 r i x).splits = g.splits := rfl
@[simp] theorem Group.setV64_handler (g : Group) (r i : Nat) (x : Dword) : (g.setV64 r i x).handler = g.handler := rfl
@[simp] theorem Group.setV64_trapWait (g : Group) (r i : Nat) (x : Dword) : (g.setV64 r i x).trapWait = g.trapWait := rfl
@[simp] theorem Group.setV64_stage (g : Group) (r i : Nat) (x : Dword) : (g.setV64 r i x).stage = g.stage := rfl
@[simp] theorem Group.setV64_cmds (g : Group) (r i : Nat) (x : Dword) : (g.setV64 r i x).cmds = g.cmds := rfl
@[simp] theorem Group.setV64_nextBatch (g : Group) (r i : Nat) (x : Dword) : (g.setV64 r i x).nextBatch = g.nextBatch := rfl
@[simp] theorem Group.setV64_batches (g : Group) (r i : Nat) (x : Dword) : (g.setV64 r i x).batches = g.batches := rfl
@[simp] theorem Group.setV64_narrow (g : Group) (r i : Nat) (x : Dword) : (g.setV64 r i x).narrow = g.narrow := rfl
@[simp] theorem Group.setV64_logical (g : Group) (r i : Nat) (x : Dword) : (g.setV64 r i x).logical = g.logical := rfl
@[simp] theorem Group.setV64_strays (g : Group) (r i : Nat) (x : Dword) : (g.setV64 r i x).strays = g.strays := rfl
@[simp] theorem Group.setV64_wire (g : Group) (r i : Nat) (x : Dword) : (g.setV64 r i x).wire = g.wire := rfl
@[simp] theorem Group.setV64_taken (g : Group) (r i : Nat) (x : Dword) : (g.setV64 r i x).taken = g.taken := rfl
@[simp] theorem Group.setV64_turn (g : Group) (r i : Nat) (x : Dword) : (g.setV64 r i x).turn = g.turn := rfl

/-- A predicate write changes predicates only. -/
theorem Group.setP_eq (g : Group) (n : Nat) (m x : Word) : ∃ p, g.setP n m x = { g with p := p } := by
  unfold Group.setP
  split
  · exact ⟨g.p, rfl⟩
  · exact ⟨_, rfl⟩

/-- A write of lanes changes vector registers only. -/
theorem Group.setLanes_eq (g : Group) (r : Nat) (ls : List Nat) (h : Nat → Word) : ∃ v, g.setLanes r ls h = { g with v := v } := by
  unfold Group.setLanes
  induction ls generalizing g with
  | nil => exact ⟨g.v, rfl⟩
  | cons i ls ih =>
    obtain ⟨v, hv⟩ := ih (g.setV r i (h i))
    exact ⟨v, by rw [List.foldl_cons, hv]; rfl⟩

/-- A write of lanes of a pair changes vector registers only. -/
theorem Group.setLanes64_eq (g : Group) (r : Nat) (ls : List Nat) (h : Nat → Dword) : ∃ v, g.setLanes64 r ls h = { g with v := v } := by
  unfold Group.setLanes64
  induction ls generalizing g with
  | nil => exact ⟨g.v, rfl⟩
  | cons i ls ih =>
    obtain ⟨v, hv⟩ := ih (g.setV64 r i (h i))
    exact ⟨v, by rw [List.foldl_cons, hv]; rfl⟩

@[simp] theorem Group.setP_id (g : Group) (n : Nat) (m x : Word) : (g.setP n m x).id = g.id := by
  obtain ⟨_, e⟩ := g.setP_eq n m x; rw [e]
@[simp] theorem Group.setP_role (g : Group) (n : Nat) (m x : Word) : (g.setP n m x).role = g.role := by
  obtain ⟨_, e⟩ := g.setP_eq n m x; rw [e]
@[simp] theorem Group.setP_part (g : Group) (n : Nat) (m x : Word) : (g.setP n m x).part = g.part := by
  obtain ⟨_, e⟩ := g.setP_eq n m x; rw [e]
@[simp] theorem Group.setP_team (g : Group) (n : Nat) (m x : Word) : (g.setP n m x).team = g.team := by
  obtain ⟨_, e⟩ := g.setP_eq n m x; rw [e]
@[simp] theorem Group.setP_num (g : Group) (n : Nat) (m x : Word) : (g.setP n m x).num = g.num := by
  obtain ⟨_, e⟩ := g.setP_eq n m x; rw [e]
@[simp] theorem Group.setP_quadrant (g : Group) (n : Nat) (m x : Word) : (g.setP n m x).quadrant = g.quadrant := by
  obtain ⟨_, e⟩ := g.setP_eq n m x; rw [e]
@[simp] theorem Group.setP_slot (g : Group) (n : Nat) (m x : Word) : (g.setP n m x).slot = g.slot := by
  obtain ⟨_, e⟩ := g.setP_eq n m x; rw [e]
@[simp] theorem Group.setP_age (g : Group) (n : Nat) (m x : Word) : (g.setP n m x).age = g.age := by
  obtain ⟨_, e⟩ := g.setP_eq n m x; rw [e]
@[simp] theorem Group.setP_exited (g : Group) (n : Nat) (m x : Word) : (g.setP n m x).exited = g.exited := by
  obtain ⟨_, e⟩ := g.setP_eq n m x; rw [e]
@[simp] theorem Group.setP_v (g : Group) (n : Nat) (m x : Word) : (g.setP n m x).v = g.v := by
  obtain ⟨_, e⟩ := g.setP_eq n m x; rw [e]
@[simp] theorem Group.setP_s (g : Group) (n : Nat) (m x : Word) : (g.setP n m x).s = g.s := by
  obtain ⟨_, e⟩ := g.setP_eq n m x; rw [e]
@[simp] theorem Group.setP_acc (g : Group) (n : Nat) (m x : Word) : (g.setP n m x).acc = g.acc := by
  obtain ⟨_, e⟩ := g.setP_eq n m x; rw [e]
@[simp] theorem Group.setP_handles (g : Group) (n : Nat) (m x : Word) : (g.setP n m x).handles = g.handles := by
  obtain ⟨_, e⟩ := g.setP_eq n m x; rw [e]
@[simp] theorem Group.setP_loose (g : Group) (n : Nat) (m x : Word) : (g.setP n m x).loose = g.loose := by
  obtain ⟨_, e⟩ := g.setP_eq n m x; rw [e]
@[simp] theorem Group.setP_window (g : Group) (n : Nat) (m x : Word) : (g.setP n m x).window = g.window := by
  obtain ⟨_, e⟩ := g.setP_eq n m x; rw [e]
@[simp] theorem Group.setP_granules (g : Group) (n : Nat) (m x : Word) : (g.setP n m x).granules = g.granules := by
  obtain ⟨_, e⟩ := g.setP_eq n m x; rw [e]
@[simp] theorem Group.setP_tiles (g : Group) (n : Nat) (m x : Word) : (g.setP n m x).tiles = g.tiles := by
  obtain ⟨_, e⟩ := g.setP_eq n m x; rw [e]
@[simp] theorem Group.setP_handleN (g : Group) (n : Nat) (m x : Word) : (g.setP n m x).handleN = g.handleN := by
  obtain ⟨_, e⟩ := g.setP_eq n m x; rw [e]
@[simp] theorem Group.setP_gang (g : Group) (n : Nat) (m x : Word) : (g.setP n m x).gang = g.gang := by
  obtain ⟨_, e⟩ := g.setP_eq n m x; rw [e]
@[simp] theorem Group.setP_joints (g : Group) (n : Nat) (m x : Word) : (g.setP n m x).joints = g.joints := by
  obtain ⟨_, e⟩ := g.setP_eq n m x; rw [e]
@[simp] theorem Group.setP_rngkey (g : Group) (n : Nat) (m x : Word) : (g.setP n m x).rngkey = g.rngkey := by
  obtain ⟨_, e⟩ := g.setP_eq n m x; rw [e]
@[simp] theorem Group.setP_smscale (g : Group) (n : Nat) (m x : Word) : (g.setP n m x).smscale = g.smscale := by
  obtain ⟨_, e⟩ := g.setP_eq n m x; rw [e]
@[simp] theorem Group.setP_trap (g : Group) (n : Nat) (m x : Word) : (g.setP n m x).trap = g.trap := by
  obtain ⟨_, e⟩ := g.setP_eq n m x; rw [e]
@[simp] theorem Group.setP_regions (g : Group) (n : Nat) (m x : Word) : (g.setP n m x).regions = g.regions := by
  obtain ⟨_, e⟩ := g.setP_eq n m x; rw [e]
@[simp] theorem Group.setP_frags (g : Group) (n : Nat) (m x : Word) : (g.setP n m x).frags = g.frags := by
  obtain ⟨_, e⟩ := g.setP_eq n m x; rw [e]
@[simp] theorem Group.setP_splits (g : Group) (n : Nat) (m x : Word) : (g.setP n m x).splits = g.splits := by
  obtain ⟨_, e⟩ := g.setP_eq n m x; rw [e]
@[simp] theorem Group.setP_handler (g : Group) (n : Nat) (m x : Word) : (g.setP n m x).handler = g.handler := by
  obtain ⟨_, e⟩ := g.setP_eq n m x; rw [e]
@[simp] theorem Group.setP_trapWait (g : Group) (n : Nat) (m x : Word) : (g.setP n m x).trapWait = g.trapWait := by
  obtain ⟨_, e⟩ := g.setP_eq n m x; rw [e]
@[simp] theorem Group.setP_stage (g : Group) (n : Nat) (m x : Word) : (g.setP n m x).stage = g.stage := by
  obtain ⟨_, e⟩ := g.setP_eq n m x; rw [e]
@[simp] theorem Group.setP_cmds (g : Group) (n : Nat) (m x : Word) : (g.setP n m x).cmds = g.cmds := by
  obtain ⟨_, e⟩ := g.setP_eq n m x; rw [e]
@[simp] theorem Group.setP_nextBatch (g : Group) (n : Nat) (m x : Word) : (g.setP n m x).nextBatch = g.nextBatch := by
  obtain ⟨_, e⟩ := g.setP_eq n m x; rw [e]
@[simp] theorem Group.setP_batches (g : Group) (n : Nat) (m x : Word) : (g.setP n m x).batches = g.batches := by
  obtain ⟨_, e⟩ := g.setP_eq n m x; rw [e]
@[simp] theorem Group.setP_narrow (g : Group) (n : Nat) (m x : Word) : (g.setP n m x).narrow = g.narrow := by
  obtain ⟨_, e⟩ := g.setP_eq n m x; rw [e]
@[simp] theorem Group.setP_logical (g : Group) (n : Nat) (m x : Word) : (g.setP n m x).logical = g.logical := by
  obtain ⟨_, e⟩ := g.setP_eq n m x; rw [e]
@[simp] theorem Group.setP_strays (g : Group) (n : Nat) (m x : Word) : (g.setP n m x).strays = g.strays := by
  obtain ⟨_, e⟩ := g.setP_eq n m x; rw [e]
@[simp] theorem Group.setP_wire (g : Group) (n : Nat) (m x : Word) : (g.setP n m x).wire = g.wire := by
  obtain ⟨_, e⟩ := g.setP_eq n m x; rw [e]
@[simp] theorem Group.setP_taken (g : Group) (n : Nat) (m x : Word) : (g.setP n m x).taken = g.taken := by
  obtain ⟨_, e⟩ := g.setP_eq n m x; rw [e]
@[simp] theorem Group.setP_turn (g : Group) (n : Nat) (m x : Word) : (g.setP n m x).turn = g.turn := by
  obtain ⟨_, e⟩ := g.setP_eq n m x; rw [e]

@[simp] theorem Group.setLanes_id (g : Group) (r : Nat) (ls : List Nat) (h : Nat → Word) : (g.setLanes r ls h).id = g.id := by
  obtain ⟨_, e⟩ := g.setLanes_eq r ls h; rw [e]
@[simp] theorem Group.setLanes_role (g : Group) (r : Nat) (ls : List Nat) (h : Nat → Word) : (g.setLanes r ls h).role = g.role := by
  obtain ⟨_, e⟩ := g.setLanes_eq r ls h; rw [e]
@[simp] theorem Group.setLanes_part (g : Group) (r : Nat) (ls : List Nat) (h : Nat → Word) : (g.setLanes r ls h).part = g.part := by
  obtain ⟨_, e⟩ := g.setLanes_eq r ls h; rw [e]
@[simp] theorem Group.setLanes_team (g : Group) (r : Nat) (ls : List Nat) (h : Nat → Word) : (g.setLanes r ls h).team = g.team := by
  obtain ⟨_, e⟩ := g.setLanes_eq r ls h; rw [e]
@[simp] theorem Group.setLanes_num (g : Group) (r : Nat) (ls : List Nat) (h : Nat → Word) : (g.setLanes r ls h).num = g.num := by
  obtain ⟨_, e⟩ := g.setLanes_eq r ls h; rw [e]
@[simp] theorem Group.setLanes_quadrant (g : Group) (r : Nat) (ls : List Nat) (h : Nat → Word) : (g.setLanes r ls h).quadrant = g.quadrant := by
  obtain ⟨_, e⟩ := g.setLanes_eq r ls h; rw [e]
@[simp] theorem Group.setLanes_slot (g : Group) (r : Nat) (ls : List Nat) (h : Nat → Word) : (g.setLanes r ls h).slot = g.slot := by
  obtain ⟨_, e⟩ := g.setLanes_eq r ls h; rw [e]
@[simp] theorem Group.setLanes_age (g : Group) (r : Nat) (ls : List Nat) (h : Nat → Word) : (g.setLanes r ls h).age = g.age := by
  obtain ⟨_, e⟩ := g.setLanes_eq r ls h; rw [e]
@[simp] theorem Group.setLanes_exited (g : Group) (r : Nat) (ls : List Nat) (h : Nat → Word) : (g.setLanes r ls h).exited = g.exited := by
  obtain ⟨_, e⟩ := g.setLanes_eq r ls h; rw [e]
@[simp] theorem Group.setLanes_s (g : Group) (r : Nat) (ls : List Nat) (h : Nat → Word) : (g.setLanes r ls h).s = g.s := by
  obtain ⟨_, e⟩ := g.setLanes_eq r ls h; rw [e]
@[simp] theorem Group.setLanes_p (g : Group) (r : Nat) (ls : List Nat) (h : Nat → Word) : (g.setLanes r ls h).p = g.p := by
  obtain ⟨_, e⟩ := g.setLanes_eq r ls h; rw [e]
@[simp] theorem Group.setLanes_acc (g : Group) (r : Nat) (ls : List Nat) (h : Nat → Word) : (g.setLanes r ls h).acc = g.acc := by
  obtain ⟨_, e⟩ := g.setLanes_eq r ls h; rw [e]
@[simp] theorem Group.setLanes_handles (g : Group) (r : Nat) (ls : List Nat) (h : Nat → Word) : (g.setLanes r ls h).handles = g.handles := by
  obtain ⟨_, e⟩ := g.setLanes_eq r ls h; rw [e]
@[simp] theorem Group.setLanes_loose (g : Group) (r : Nat) (ls : List Nat) (h : Nat → Word) : (g.setLanes r ls h).loose = g.loose := by
  obtain ⟨_, e⟩ := g.setLanes_eq r ls h; rw [e]
@[simp] theorem Group.setLanes_window (g : Group) (r : Nat) (ls : List Nat) (h : Nat → Word) : (g.setLanes r ls h).window = g.window := by
  obtain ⟨_, e⟩ := g.setLanes_eq r ls h; rw [e]
@[simp] theorem Group.setLanes_granules (g : Group) (r : Nat) (ls : List Nat) (h : Nat → Word) : (g.setLanes r ls h).granules = g.granules := by
  obtain ⟨_, e⟩ := g.setLanes_eq r ls h; rw [e]
@[simp] theorem Group.setLanes_tiles (g : Group) (r : Nat) (ls : List Nat) (h : Nat → Word) : (g.setLanes r ls h).tiles = g.tiles := by
  obtain ⟨_, e⟩ := g.setLanes_eq r ls h; rw [e]
@[simp] theorem Group.setLanes_handleN (g : Group) (r : Nat) (ls : List Nat) (h : Nat → Word) : (g.setLanes r ls h).handleN = g.handleN := by
  obtain ⟨_, e⟩ := g.setLanes_eq r ls h; rw [e]
@[simp] theorem Group.setLanes_gang (g : Group) (r : Nat) (ls : List Nat) (h : Nat → Word) : (g.setLanes r ls h).gang = g.gang := by
  obtain ⟨_, e⟩ := g.setLanes_eq r ls h; rw [e]
@[simp] theorem Group.setLanes_joints (g : Group) (r : Nat) (ls : List Nat) (h : Nat → Word) : (g.setLanes r ls h).joints = g.joints := by
  obtain ⟨_, e⟩ := g.setLanes_eq r ls h; rw [e]
@[simp] theorem Group.setLanes_rngkey (g : Group) (r : Nat) (ls : List Nat) (h : Nat → Word) : (g.setLanes r ls h).rngkey = g.rngkey := by
  obtain ⟨_, e⟩ := g.setLanes_eq r ls h; rw [e]
@[simp] theorem Group.setLanes_smscale (g : Group) (r : Nat) (ls : List Nat) (h : Nat → Word) : (g.setLanes r ls h).smscale = g.smscale := by
  obtain ⟨_, e⟩ := g.setLanes_eq r ls h; rw [e]
@[simp] theorem Group.setLanes_trap (g : Group) (r : Nat) (ls : List Nat) (h : Nat → Word) : (g.setLanes r ls h).trap = g.trap := by
  obtain ⟨_, e⟩ := g.setLanes_eq r ls h; rw [e]
@[simp] theorem Group.setLanes_regions (g : Group) (r : Nat) (ls : List Nat) (h : Nat → Word) : (g.setLanes r ls h).regions = g.regions := by
  obtain ⟨_, e⟩ := g.setLanes_eq r ls h; rw [e]
@[simp] theorem Group.setLanes_frags (g : Group) (r : Nat) (ls : List Nat) (h : Nat → Word) : (g.setLanes r ls h).frags = g.frags := by
  obtain ⟨_, e⟩ := g.setLanes_eq r ls h; rw [e]
@[simp] theorem Group.setLanes_splits (g : Group) (r : Nat) (ls : List Nat) (h : Nat → Word) : (g.setLanes r ls h).splits = g.splits := by
  obtain ⟨_, e⟩ := g.setLanes_eq r ls h; rw [e]
@[simp] theorem Group.setLanes_handler (g : Group) (r : Nat) (ls : List Nat) (h : Nat → Word) : (g.setLanes r ls h).handler = g.handler := by
  obtain ⟨_, e⟩ := g.setLanes_eq r ls h; rw [e]
@[simp] theorem Group.setLanes_trapWait (g : Group) (r : Nat) (ls : List Nat) (h : Nat → Word) : (g.setLanes r ls h).trapWait = g.trapWait := by
  obtain ⟨_, e⟩ := g.setLanes_eq r ls h; rw [e]
@[simp] theorem Group.setLanes_stage (g : Group) (r : Nat) (ls : List Nat) (h : Nat → Word) : (g.setLanes r ls h).stage = g.stage := by
  obtain ⟨_, e⟩ := g.setLanes_eq r ls h; rw [e]
@[simp] theorem Group.setLanes_cmds (g : Group) (r : Nat) (ls : List Nat) (h : Nat → Word) : (g.setLanes r ls h).cmds = g.cmds := by
  obtain ⟨_, e⟩ := g.setLanes_eq r ls h; rw [e]
@[simp] theorem Group.setLanes_nextBatch (g : Group) (r : Nat) (ls : List Nat) (h : Nat → Word) : (g.setLanes r ls h).nextBatch = g.nextBatch := by
  obtain ⟨_, e⟩ := g.setLanes_eq r ls h; rw [e]
@[simp] theorem Group.setLanes_batches (g : Group) (r : Nat) (ls : List Nat) (h : Nat → Word) : (g.setLanes r ls h).batches = g.batches := by
  obtain ⟨_, e⟩ := g.setLanes_eq r ls h; rw [e]
@[simp] theorem Group.setLanes_narrow (g : Group) (r : Nat) (ls : List Nat) (h : Nat → Word) : (g.setLanes r ls h).narrow = g.narrow := by
  obtain ⟨_, e⟩ := g.setLanes_eq r ls h; rw [e]
@[simp] theorem Group.setLanes_logical (g : Group) (r : Nat) (ls : List Nat) (h : Nat → Word) : (g.setLanes r ls h).logical = g.logical := by
  obtain ⟨_, e⟩ := g.setLanes_eq r ls h; rw [e]
@[simp] theorem Group.setLanes_strays (g : Group) (r : Nat) (ls : List Nat) (h : Nat → Word) : (g.setLanes r ls h).strays = g.strays := by
  obtain ⟨_, e⟩ := g.setLanes_eq r ls h; rw [e]
@[simp] theorem Group.setLanes_wire (g : Group) (r : Nat) (ls : List Nat) (h : Nat → Word) : (g.setLanes r ls h).wire = g.wire := by
  obtain ⟨_, e⟩ := g.setLanes_eq r ls h; rw [e]
@[simp] theorem Group.setLanes_taken (g : Group) (r : Nat) (ls : List Nat) (h : Nat → Word) : (g.setLanes r ls h).taken = g.taken := by
  obtain ⟨_, e⟩ := g.setLanes_eq r ls h; rw [e]
@[simp] theorem Group.setLanes_turn (g : Group) (r : Nat) (ls : List Nat) (h : Nat → Word) : (g.setLanes r ls h).turn = g.turn := by
  obtain ⟨_, e⟩ := g.setLanes_eq r ls h; rw [e]

@[simp] theorem Group.setLanes64_id (g : Group) (r : Nat) (ls : List Nat) (h : Nat → Dword) : (g.setLanes64 r ls h).id = g.id := by
  obtain ⟨_, e⟩ := g.setLanes64_eq r ls h; rw [e]
@[simp] theorem Group.setLanes64_role (g : Group) (r : Nat) (ls : List Nat) (h : Nat → Dword) : (g.setLanes64 r ls h).role = g.role := by
  obtain ⟨_, e⟩ := g.setLanes64_eq r ls h; rw [e]
@[simp] theorem Group.setLanes64_part (g : Group) (r : Nat) (ls : List Nat) (h : Nat → Dword) : (g.setLanes64 r ls h).part = g.part := by
  obtain ⟨_, e⟩ := g.setLanes64_eq r ls h; rw [e]
@[simp] theorem Group.setLanes64_team (g : Group) (r : Nat) (ls : List Nat) (h : Nat → Dword) : (g.setLanes64 r ls h).team = g.team := by
  obtain ⟨_, e⟩ := g.setLanes64_eq r ls h; rw [e]
@[simp] theorem Group.setLanes64_num (g : Group) (r : Nat) (ls : List Nat) (h : Nat → Dword) : (g.setLanes64 r ls h).num = g.num := by
  obtain ⟨_, e⟩ := g.setLanes64_eq r ls h; rw [e]
@[simp] theorem Group.setLanes64_quadrant (g : Group) (r : Nat) (ls : List Nat) (h : Nat → Dword) : (g.setLanes64 r ls h).quadrant = g.quadrant := by
  obtain ⟨_, e⟩ := g.setLanes64_eq r ls h; rw [e]
@[simp] theorem Group.setLanes64_slot (g : Group) (r : Nat) (ls : List Nat) (h : Nat → Dword) : (g.setLanes64 r ls h).slot = g.slot := by
  obtain ⟨_, e⟩ := g.setLanes64_eq r ls h; rw [e]
@[simp] theorem Group.setLanes64_age (g : Group) (r : Nat) (ls : List Nat) (h : Nat → Dword) : (g.setLanes64 r ls h).age = g.age := by
  obtain ⟨_, e⟩ := g.setLanes64_eq r ls h; rw [e]
@[simp] theorem Group.setLanes64_exited (g : Group) (r : Nat) (ls : List Nat) (h : Nat → Dword) : (g.setLanes64 r ls h).exited = g.exited := by
  obtain ⟨_, e⟩ := g.setLanes64_eq r ls h; rw [e]
@[simp] theorem Group.setLanes64_s (g : Group) (r : Nat) (ls : List Nat) (h : Nat → Dword) : (g.setLanes64 r ls h).s = g.s := by
  obtain ⟨_, e⟩ := g.setLanes64_eq r ls h; rw [e]
@[simp] theorem Group.setLanes64_p (g : Group) (r : Nat) (ls : List Nat) (h : Nat → Dword) : (g.setLanes64 r ls h).p = g.p := by
  obtain ⟨_, e⟩ := g.setLanes64_eq r ls h; rw [e]
@[simp] theorem Group.setLanes64_acc (g : Group) (r : Nat) (ls : List Nat) (h : Nat → Dword) : (g.setLanes64 r ls h).acc = g.acc := by
  obtain ⟨_, e⟩ := g.setLanes64_eq r ls h; rw [e]
@[simp] theorem Group.setLanes64_handles (g : Group) (r : Nat) (ls : List Nat) (h : Nat → Dword) : (g.setLanes64 r ls h).handles = g.handles := by
  obtain ⟨_, e⟩ := g.setLanes64_eq r ls h; rw [e]
@[simp] theorem Group.setLanes64_loose (g : Group) (r : Nat) (ls : List Nat) (h : Nat → Dword) : (g.setLanes64 r ls h).loose = g.loose := by
  obtain ⟨_, e⟩ := g.setLanes64_eq r ls h; rw [e]
@[simp] theorem Group.setLanes64_window (g : Group) (r : Nat) (ls : List Nat) (h : Nat → Dword) : (g.setLanes64 r ls h).window = g.window := by
  obtain ⟨_, e⟩ := g.setLanes64_eq r ls h; rw [e]
@[simp] theorem Group.setLanes64_granules (g : Group) (r : Nat) (ls : List Nat) (h : Nat → Dword) : (g.setLanes64 r ls h).granules = g.granules := by
  obtain ⟨_, e⟩ := g.setLanes64_eq r ls h; rw [e]
@[simp] theorem Group.setLanes64_tiles (g : Group) (r : Nat) (ls : List Nat) (h : Nat → Dword) : (g.setLanes64 r ls h).tiles = g.tiles := by
  obtain ⟨_, e⟩ := g.setLanes64_eq r ls h; rw [e]
@[simp] theorem Group.setLanes64_handleN (g : Group) (r : Nat) (ls : List Nat) (h : Nat → Dword) : (g.setLanes64 r ls h).handleN = g.handleN := by
  obtain ⟨_, e⟩ := g.setLanes64_eq r ls h; rw [e]
@[simp] theorem Group.setLanes64_gang (g : Group) (r : Nat) (ls : List Nat) (h : Nat → Dword) : (g.setLanes64 r ls h).gang = g.gang := by
  obtain ⟨_, e⟩ := g.setLanes64_eq r ls h; rw [e]
@[simp] theorem Group.setLanes64_joints (g : Group) (r : Nat) (ls : List Nat) (h : Nat → Dword) : (g.setLanes64 r ls h).joints = g.joints := by
  obtain ⟨_, e⟩ := g.setLanes64_eq r ls h; rw [e]
@[simp] theorem Group.setLanes64_rngkey (g : Group) (r : Nat) (ls : List Nat) (h : Nat → Dword) : (g.setLanes64 r ls h).rngkey = g.rngkey := by
  obtain ⟨_, e⟩ := g.setLanes64_eq r ls h; rw [e]
@[simp] theorem Group.setLanes64_smscale (g : Group) (r : Nat) (ls : List Nat) (h : Nat → Dword) : (g.setLanes64 r ls h).smscale = g.smscale := by
  obtain ⟨_, e⟩ := g.setLanes64_eq r ls h; rw [e]
@[simp] theorem Group.setLanes64_trap (g : Group) (r : Nat) (ls : List Nat) (h : Nat → Dword) : (g.setLanes64 r ls h).trap = g.trap := by
  obtain ⟨_, e⟩ := g.setLanes64_eq r ls h; rw [e]
@[simp] theorem Group.setLanes64_regions (g : Group) (r : Nat) (ls : List Nat) (h : Nat → Dword) : (g.setLanes64 r ls h).regions = g.regions := by
  obtain ⟨_, e⟩ := g.setLanes64_eq r ls h; rw [e]
@[simp] theorem Group.setLanes64_frags (g : Group) (r : Nat) (ls : List Nat) (h : Nat → Dword) : (g.setLanes64 r ls h).frags = g.frags := by
  obtain ⟨_, e⟩ := g.setLanes64_eq r ls h; rw [e]
@[simp] theorem Group.setLanes64_splits (g : Group) (r : Nat) (ls : List Nat) (h : Nat → Dword) : (g.setLanes64 r ls h).splits = g.splits := by
  obtain ⟨_, e⟩ := g.setLanes64_eq r ls h; rw [e]
@[simp] theorem Group.setLanes64_handler (g : Group) (r : Nat) (ls : List Nat) (h : Nat → Dword) : (g.setLanes64 r ls h).handler = g.handler := by
  obtain ⟨_, e⟩ := g.setLanes64_eq r ls h; rw [e]
@[simp] theorem Group.setLanes64_trapWait (g : Group) (r : Nat) (ls : List Nat) (h : Nat → Dword) : (g.setLanes64 r ls h).trapWait = g.trapWait := by
  obtain ⟨_, e⟩ := g.setLanes64_eq r ls h; rw [e]
@[simp] theorem Group.setLanes64_stage (g : Group) (r : Nat) (ls : List Nat) (h : Nat → Dword) : (g.setLanes64 r ls h).stage = g.stage := by
  obtain ⟨_, e⟩ := g.setLanes64_eq r ls h; rw [e]
@[simp] theorem Group.setLanes64_cmds (g : Group) (r : Nat) (ls : List Nat) (h : Nat → Dword) : (g.setLanes64 r ls h).cmds = g.cmds := by
  obtain ⟨_, e⟩ := g.setLanes64_eq r ls h; rw [e]
@[simp] theorem Group.setLanes64_nextBatch (g : Group) (r : Nat) (ls : List Nat) (h : Nat → Dword) : (g.setLanes64 r ls h).nextBatch = g.nextBatch := by
  obtain ⟨_, e⟩ := g.setLanes64_eq r ls h; rw [e]
@[simp] theorem Group.setLanes64_batches (g : Group) (r : Nat) (ls : List Nat) (h : Nat → Dword) : (g.setLanes64 r ls h).batches = g.batches := by
  obtain ⟨_, e⟩ := g.setLanes64_eq r ls h; rw [e]
@[simp] theorem Group.setLanes64_narrow (g : Group) (r : Nat) (ls : List Nat) (h : Nat → Dword) : (g.setLanes64 r ls h).narrow = g.narrow := by
  obtain ⟨_, e⟩ := g.setLanes64_eq r ls h; rw [e]
@[simp] theorem Group.setLanes64_logical (g : Group) (r : Nat) (ls : List Nat) (h : Nat → Dword) : (g.setLanes64 r ls h).logical = g.logical := by
  obtain ⟨_, e⟩ := g.setLanes64_eq r ls h; rw [e]
@[simp] theorem Group.setLanes64_strays (g : Group) (r : Nat) (ls : List Nat) (h : Nat → Dword) : (g.setLanes64 r ls h).strays = g.strays := by
  obtain ⟨_, e⟩ := g.setLanes64_eq r ls h; rw [e]
@[simp] theorem Group.setLanes64_wire (g : Group) (r : Nat) (ls : List Nat) (h : Nat → Dword) : (g.setLanes64 r ls h).wire = g.wire := by
  obtain ⟨_, e⟩ := g.setLanes64_eq r ls h; rw [e]
@[simp] theorem Group.setLanes64_taken (g : Group) (r : Nat) (ls : List Nat) (h : Nat → Dword) : (g.setLanes64 r ls h).taken = g.taken := by
  obtain ⟨_, e⟩ := g.setLanes64_eq r ls h; rw [e]
@[simp] theorem Group.setLanes64_turn (g : Group) (r : Nat) (ls : List Nat) (h : Nat → Dword) : (g.setLanes64 r ls h).turn = g.turn := by
  obtain ⟨_, e⟩ := g.setLanes64_eq r ls h; rw [e]

/-! ### Lookups after updates -/

/-- A lookup after a change of every entry with a key, where the change keeps keys. -/
theorem findBy_modBy {α : Type} (key : α → Nat) (l : List α) (k j : Nat) (h : α → α) (hk : ∀ x, key (h x) = key x) :
    findBy key (modBy key l k h) j = if j = k then (findBy key l j).map h else findBy key l j := by
  unfold findBy modBy
  induction l with
  | nil => simp
  | cons x l ih =>
    by_cases hx : key x = k <;> by_cases hj : j = k <;> by_cases hxj : key x = j <;>
      simp_all

/-- A lookup after an entry has been put in the place of the entry with its key. -/
theorem findBy_putBy {α : Type} (key : α → Nat) (l : List α) (j : Nat) (x : α) :
    findBy key (putBy key l x) j = if j = key x then (findBy key l j).map (fun _ => x) else findBy key l j := by
  unfold findBy putBy
  induction l with
  | nil => simp
  | cons y l ih =>
    by_cases hy : key y = key x <;> by_cases hj : j = key x <;> by_cases hyj : key y = j <;>
      simp_all

/-- The key of what a lookup finds. -/
theorem findBy_key {α : Type} {key : α → Nat} {l : List α} {k : Nat} {x : α} (h : findBy key l k = some x) : key x = k := by
  have := List.find?_some h
  simpa using this

/-- The group that was put, under its id. -/
theorem State.group?_setGroup (s : State) (g : Group) (k : Nat) :
    (s.setGroup g).group? k = if k = g.id then (s.group? k).map (fun _ => g) else s.group? k := findBy_putBy Group.id s.groups k g

/-- A group after a change of one group that keeps ids. -/
theorem State.group?_modGroup (s : State) (j k : Nat) (h : Group → Group) (hk : ∀ x, (h x).id = x.id) :
    (s.modGroup j h).group? k = if k = j then (s.group? k).map h else s.group? k := findBy_modBy Group.id s.groups j k h hk

/-- The fragment that was put, under its id. -/
theorem Group.frag?_setFrag (g : Group) (f : Frag) (k : Nat) :
    (g.setFrag f).frag? k = if k = f.id then (g.frag? k).map (fun _ => f) else g.frag? k := findBy_putBy Frag.id g.frags k f

/-- A fragment after a change of one fragment that keeps ids. -/
theorem Group.frag?_modFrag (g : Group) (j k : Nat) (h : Frag → Frag) (hk : ∀ x, (h x).id = x.id) :
    (g.modFrag j h).frag? k = if k = j then (g.frag? k).map h else g.frag? k := findBy_modBy Frag.id g.frags j k h hk

@[simp] theorem State.group?_setTeam (s : State) (x : Team) (k : Nat) : (s.setTeam x).group? k = s.group? k := rfl
@[simp] theorem State.group?_setGrid (s : State) (x : Grid) (k : Nat) : (s.setGrid x).group? k = s.group? k := rfl
@[simp] theorem State.group?_setPart (s : State) (x : Part) (k : Nat) : (s.setPart x).group? k = s.group? k := rfl
@[simp] theorem State.group?_setHome (s : State) (x : Home) (k : Nat) : (s.setHome x).group? k = s.group? k := rfl
@[simp] theorem State.group?_modTeam (s : State) (j : Nat) (h : Team → Team) (k : Nat) : (s.modTeam j h).group? k = s.group? k := rfl
@[simp] theorem State.group?_modGrid (s : State) (j : Nat) (h : Grid → Grid) (k : Nat) : (s.modGrid j h).group? k = s.group? k := rfl
@[simp] theorem State.group?_modPart (s : State) (j : Nat) (h : Part → Part) (k : Nat) : (s.modPart j h).group? k = s.group? k := rfl
@[simp] theorem State.group?_modHome (s : State) (j : Nat) (h : Home → Home) (k : Nat) : (s.modHome j h).group? k = s.group? k := rfl
@[simp] theorem State.group?_count (s : State) (kind unit reg n k : Nat) : (s.count kind unit reg n).group? k = s.group? k := rfl
@[simp] theorem State.group?_fresh (s : State) (k : Nat) : s.fresh.2.group? k = s.group? k := rfl

end Sys2Proof.Machine
end

