-- ==== Sys2Proof/Laws/Memory.lean ====
section
/-!
SUPPORT. Sparse storage and memory: a read after a write, and that every memory operation keeps the canonical form.
-/

namespace Sys2Proof.Machine

/-! ### Sparse storage -/

section Storage
variable {β : Type} [DecidableEq β] {d : β}

/-- A canonical list is canonical from any lower bound. -/
theorem swf_mono {lo lo' : Nat} {l : List (Nat × β)} (h : swf d lo l = true) (hl : lo' ≤ lo) : swf d lo' l = true := by
  cases l with
  | nil => rfl
  | cons x r =>
    obtain ⟨k, v⟩ := x
    simp only [swf, Bool.and_eq_true, decide_eq_true_eq] at h ⊢
    exact ⟨⟨by omega, h.1.2⟩, h.2⟩

/-- A write keeps the canonical form. -/
theorem swf_sset {lo : Nat} {l : List (Nat × β)} (h : swf d lo l = true) (k : Nat) (v : β) (hk : lo ≤ k) :
    swf d lo (sset d l k v) = true := by
  induction l generalizing lo with
  | nil => by_cases hv : v = d <;> simp [sset, hv, swf, hk]
  | cons x r ih =>
    obtain ⟨k', v'⟩ := x
    simp only [swf, Bool.and_eq_true, decide_eq_true_eq] at h
    obtain ⟨⟨h1, h2⟩, h3⟩ := h
    unfold sset
    by_cases hlt : k < k'
    · by_cases hv : v = d
      · simp [hlt, hv, swf, h1, h2, h3]
      · simp [hlt, hv, swf, hk, h2, h3] <;> omega
    · by_cases he : k = k'
      · subst he
        by_cases hv : v = d
        · simpa [hv] using swf_mono h3 (by omega)
        · simp [hv, swf, h1, h3]
      · simp only [hlt, he, if_false, swf, Bool.and_eq_true, decide_eq_true_eq]
        exact ⟨⟨h1, h2⟩, ih h3 (by omega)⟩

/-- Below the bound nothing is listed. -/
theorem sget_below {lo : Nat} {l : List (Nat × β)} (h : swf d lo l = true) {j : Nat} (hj : j < lo) : sget d l j = d := by
  cases l with
  | nil => rfl
  | cons x r =>
    obtain ⟨k, v⟩ := x
    simp only [swf, Bool.and_eq_true, decide_eq_true_eq] at h
    have h1 : j ≠ k := by omega
    have h2 : j < k := by omega
    simp [sget, h1, h2]

/-- A read after a write: the value written at its key, the old value at every other key. -/
theorem sget_sset {lo : Nat} {l : List (Nat × β)} (h : swf d lo l = true) (k j : Nat) (v : β) :
    sget d (sset d l k v) j = if j = k then v else sget d l j := by
  induction l generalizing lo with
  | nil =>
    by_cases hv : v = d <;> by_cases hj : j = k <;> simp [sset, sget, hv, hj]
  | cons x r ih =>
    obtain ⟨k', v'⟩ := x
    simp only [swf, Bool.and_eq_true, decide_eq_true_eq] at h
    obtain ⟨⟨h1, h2⟩, h3⟩ := h
    have below : ∀ i, i ≤ k' → sget d r i = d := fun i hi => sget_below h3 (by omega)
    have step := ih h3
    unfold sset
    by_cases hlt : k < k'
    · by_cases hv : v = d
      · by_cases hj : j = k
        · subst hj
          have : j ≠ k' := by omega
          simp [hlt, hv, sget, this]
        · simp [hlt, hv, hj]
      · by_cases hj : j = k
        · simp [hlt, hv, hj, sget]
        · by_cases hjk : j < k
          · have h4 : j < k' := by omega
            have h5 : j ≠ k' := by omega
            simp [hlt, hv, hj, sget, hjk, h4, h5]
          · simp [hlt, hv, hj, sget, hjk]
    · by_cases he : k = k'
      · subst he
        by_cases hv : v = d
        · by_cases hj : j = k
          · simp [hv, hj, below k (by omega)]
          · by_cases hjk : j < k
            · simp [hv, hj, sget, hjk, below j (by omega)]
            · simp [hv, hj, sget, hjk]
        · by_cases hj : j = k <;> simp [hv, hj, sget]
      · simp only [hlt, he, if_false, sget]
        by_cases hj : j = k'
        · have : j ≠ k := by omega
          simp [hj, Ne.symm he]
        · by_cases hjk : j < k'
          · have : j ≠ k := by omega
            simp [hj, hjk, this]
          · simp [hj, hjk, step]

end Storage

/-! ### Memory keeps its canonical form -/

/-- Memory of a state is in canonical form. -/
abbrev MemOk (s : State) : Prop := Memory.wf s.mem = true

/-- One byte written keeps the canonical form. -/
theorem memory_wf_sset {m : Cells} (h : Memory.wf m = true) (k : Nat) (b : Byte) : Memory.wf (sset 0 m k b) = true :=
  swf_sset h k b (Nat.zero_le k)

/-- Bytes written in a row keep the canonical form. -/
theorem memory_wf_fold (bs : List Byte) (m : Cells) (k : Nat) (h : Memory.wf m = true) :
    Memory.wf (bs.foldl (fun (mi : Cells × Nat) b => (sset 0 mi.1 mi.2 b, mi.2 + 1)) (m, k)).1 = true := by
  induction bs generalizing m k with
  | nil => exact h
  | cons b bs ih => exact ih _ _ (memory_wf_sset h k b)

/-- Placing bytes keeps the canonical form. -/
theorem placeBytes_wf {s : State} (h : MemOk s) (l : Loc) (bs : List Byte) : MemOk (placeBytes s l bs) := by
  cases l with
  | mem k => exact memory_wf_fold bs s.mem k h
  | slice t o => exact h

/-- Judging watches leaves memory. -/
@[simp] theorem notify_mem (s : State) (q : Nat) (l : Loc) (n : Nat) : (notify s q l n).mem = s.mem := rfl

/-- What a write does to memory is the placing of its bytes. -/
@[simp] theorem writeAt_mem (s : State) (q : Nat) (l : Loc) (bs : List Byte) : (writeAt s q l bs).mem = (placeBytes s l bs).mem := by
  cases l <;> rfl

/-- A write keeps the canonical form. -/
theorem writeAt_wf {s : State} (h : MemOk s) (q : Nat) (l : Loc) (bs : List Byte) : MemOk (writeAt s q l bs) := by
  unfold MemOk; rw [writeAt_mem]; exact placeBytes_wf h l bs

/-- A write of no release keeps the canonical form. -/
theorem writeLoc_wf {s : State} (h : MemOk s) (l : Loc) (bs : List Byte) : MemOk (writeLoc s l bs) := writeAt_wf h 0 l bs

/-- A number written keeps the canonical form. -/
theorem writeNat_wf {s : State} (h : MemOk s) (k n x : Nat) : MemOk (writeNat s k n x) := writeLoc_wf h _ _

/-- A write of a team of a running phase keeps the canonical form. -/
theorem writePhase_wf {s : State} (h : MemOk s) (t q g : Nat) (l : Loc) (bs : List Byte) : MemOk (writePhase s t q g l bs) := by
  cases l with
  | mem k => exact h
  | slice t' o => exact h

/-- The walker's mark keeps the canonical form. -/
theorem useLeaf_wf {s : State} (h : MemOk s) (part : Nat) (l : Leaf) (w : Bool) : MemOk (useLeaf s part l w) := by
  unfold useLeaf
  cases l.addr with
  | none => exact h
  | some a => exact memory_wf_sset h _ _

/-- The walker's marks of a list of accesses keep the canonical form. -/
theorem useLeaves_wf {s : State} (h : MemOk s) (part : Nat) (ts : List Trans) (w : Bool) : MemOk (useLeaves s part ts w) := by
  unfold useLeaves
  show Memory.wf (ts.foldl _ s).mem = true
  induction ts generalizing s with
  | nil => exact h
  | cons t ts ih =>
    rw [List.foldl_cons]
    apply ih
    split
    · exact useLeaf_wf h part _ w
    · exact h

/-! ### Reads after writes -/

/-- A byte read after bytes were placed: the byte placed there, or the byte as it was. -/
theorem readKey_fold (bs : List Byte) (m : Cells) (k j : Nat) (h : Memory.wf m = true) :
    sget 0 (bs.foldl (fun (mi : Cells × Nat) b => (sset 0 mi.1 mi.2 b, mi.2 + 1)) (m, k)).1 j =
      if k ≤ j ∧ j < k + bs.length then bs.getD (j - k) 0 else sget 0 m j := by
  induction bs generalizing m k with
  | nil =>
    have h0 : ¬(k ≤ j ∧ j < k + ([] : List Byte).length) := by simp
    rw [if_neg h0]; rfl
  | cons b bs ih =>
    rw [List.foldl_cons, ih _ _ (memory_wf_sset h k b), sget_sset h]
    by_cases h1 : j = k
    · subst h1
      rw [if_neg (by omega : ¬(j + 1 ≤ j ∧ j < j + 1 + bs.length))]
      simp
    · by_cases h2 : k + 1 ≤ j ∧ j < k + 1 + bs.length
      · have h3 : k ≤ j ∧ j < k + (b :: bs).length := by simp; omega
        have h4 : j - k = (j - (k + 1)) + 1 := by omega
        rw [if_pos h2, if_pos h3, h4]; rfl
      · have h3 : ¬(k ≤ j ∧ j < k + (b :: bs).length) := by simp; omega
        rw [if_neg h2, if_neg h3, if_neg h1]

/-- Placed bytes read back, and every other byte of memory is unchanged. -/
theorem readKey_placeBytes {s : State} (h : MemOk s) (k j : Nat) (bs : List Byte) :
    readKey (placeBytes s (.mem k) bs) j = if k ≤ j ∧ j < k + bs.length then bs.getD (j - k) 0 else readKey s j :=
  readKey_fold bs s.mem k j h

end Sys2Proof.Machine
end

