-- ==== Sys2Proof/Laws/PerInstr.lean ====
section
/-!
SUPPORT. What holds of each instruction as syntax, constructor by constructor: family Encoding.
-/

namespace Sys2Proof.Laws.Encoding

/-- The unit of an encoded instruction is at most three words (03 R75), and its own word is no prefix word (03 R83): a fetch ends with it. -/
def Statement (i : Instr) : Prop := i.isEncoded = true → isPrefixWord i.fields.join = false ∧ (encode i).length ≤ 3

/-- The opcode of joined fields. -/
theorem opcode_join (x : Fields) : opcode x.join = x.op.toNat := by
  have : x.join.extractLsb' 25 7 = x.op := by
    apply BitVec.eq_of_getLsbD_eq
    intro k hk
    simp only [Fields.join, BitVec.getLsbD_extractLsb', BitVec.getLsbD_append, hk, decide_true, Bool.true_and]
    have h1 : ¬(25 + k < 4) := by omega
    have h2 : ¬(25 + k - 4 < 7) := by omega
    have h3 : ¬(25 + k - 4 - 7 < 7) := by omega
    have h4 : ¬(25 + k - 4 - 7 - 7 < 7) := by omega
    have h5 : 25 + k - 4 - 7 - 7 - 7 = k := by omega
    simp [h1, h2, h3, h4, h5]
  simp [opcode, this]

/-- An instruction with an encoding whose opcode is no prefix's and which takes at most one of MODW and MXW. -/
theorem encoded {i : Instr} (h : (i.fields.op.toNat == 0x0E || i.fields.op.toNat == 0x0F || i.fields.op.toNat == 0x1F) = false)
    (hp : i.modw = none ∨ i.mxw = none) : Statement i := by
  intro _
  refine ⟨by rw [isPrefixWord, opcode_join]; exact h, ?_⟩
  rcases hp with hp | hp <;> simp only [encode, hp] <;> split <;> (try split) <;> simp

/-- An event has no encoding. -/
theorem event {i : Instr} (h : i.isEncoded = false) : Statement i := fun h1 => absurd (h.symm.trans h1) Bool.false_ne_true

theorem nop : Statement .nop := encoded rfl (.inr rfl)
theorem bra (p : BitVec 4) (n : BitVec 1) (m : BitVec 2) (o : BitVec 18) : Statement (.bra p n m o) := encoded rfl (.inr rfl)
theorem brx (a : BitVec 5) : Statement (.brx a) := encoded rfl (.inr rfl)
theorem call (p : BitVec 4) (n : BitVec 1) (m : BitVec 2) (o : BitVec 18) : Statement (.call p n m o) := encoded rfl (.inr rfl)
theorem ret (a : BitVec 6) : Statement (.ret a) := encoded rfl (.inr rfl)
theorem jset (o : BitVec 18) : Statement (.jset o) := encoded rfl (.inr rfl)
theorem dbra (d : BitVec 6) (i : BitVec 18) : Statement (.dbra d i) := encoded rfl (.inr rfl)
theorem exit : Statement .exit := encoded rfl (.inr rfl)
theorem ychk : Statement .ychk := encoded rfl (.inr rfl)
theorem rgn (m : BitVec 16) : Statement (.rgn m) := encoded rfl (.inr rfl)
theorem rgnSp (m : BitVec 16) : Statement (.rgnSp m) := encoded rfl (.inr rfl)
theorem trap (c : BitVec 18) : Statement (.trap c) := encoded rfl (.inr rfl)
theorem tret : Statement .tret := encoded rfl (.inr rfl)
theorem tretRegion : Statement .tretRegion := encoded rfl (.inr rfl)
theorem tretAddr (a : BitVec 5) : Statement (.tretAddr a) := encoded rfl (.inr rfl)
theorem brk (c : BitVec 18) : Statement (.brk c) := encoded rfl (.inr rfl)
theorem wbase (i : BitVec 11) : Statement (.wbase i) := encoded rfl (.inr rfl)
theorem sadd (d a b : BitVec 6) : Statement (.sadd d a b) := encoded rfl (.inr rfl)
theorem ssub (d a b : BitVec 6) : Statement (.ssub d a b) := encoded rfl (.inr rfl)
theorem smul (d a b : BitVec 6) : Statement (.smul d a b) := encoded rfl (.inr rfl)
theorem smulhu (d a b : BitVec 6) : Statement (.smulhu d a b) := encoded rfl (.inr rfl)
theorem smulhs (d a b : BitVec 6) : Statement (.smulhs d a b) := encoded rfl (.inr rfl)
theorem sand (d a b : BitVec 6) : Statement (.sand d a b) := encoded rfl (.inr rfl)
theorem sor (d a b : BitVec 6) : Statement (.sor d a b) := encoded rfl (.inr rfl)
theorem sxor (d a b : BitVec 6) : Statement (.sxor d a b) := encoded rfl (.inr rfl)
theorem sshl (d a b : BitVec 6) : Statement (.sshl d a b) := encoded rfl (.inr rfl)
theorem sshr (d a b : BitVec 6) : Statement (.sshr d a b) := encoded rfl (.inr rfl)
theorem ssra (d a b : BitVec 6) : Statement (.ssra d a b) := encoded rfl (.inr rfl)
theorem smin (d a b : BitVec 6) : Statement (.smin d a b) := encoded rfl (.inr rfl)
theorem smax (d a b : BitVec 6) : Statement (.smax d a b) := encoded rfl (.inr rfl)
theorem sminu (d a b : BitVec 6) : Statement (.sminu d a b) := encoded rfl (.inr rfl)
theorem smaxu (d a b : BitVec 6) : Statement (.smaxu d a b) := encoded rfl (.inr rfl)
theorem sandn (d a b : BitVec 6) : Statement (.sandn d a b) := encoded rfl (.inr rfl)
theorem saddi (d a : BitVec 6) (i : Imm11) : Statement (.saddi d a i) := encoded rfl (.inr rfl)
theorem sandi (d a : BitVec 6) (i : Imm11) : Statement (.sandi d a i) := encoded rfl (.inr rfl)
theorem sori (d a : BitVec 6) (i : Imm11) : Statement (.sori d a i) := encoded rfl (.inr rfl)
theorem sxori (d a : BitVec 6) (i : Imm11) : Statement (.sxori d a i) := encoded rfl (.inr rfl)
theorem sshli (d a : BitVec 6) (i : BitVec 5) : Statement (.sshli d a i) := encoded rfl (.inr rfl)
theorem sshri (d a : BitVec 6) (i : BitVec 5) : Statement (.sshri d a i) := encoded rfl (.inr rfl)
theorem ssrai (d a : BitVec 6) (i : BitVec 5) : Statement (.ssrai d a i) := encoded rfl (.inr rfl)
theorem sli (d : BitVec 6) (i : Imm18) : Statement (.sli d i) := encoded rfl (.inr rfl)
theorem sclz (d a : BitVec 6) : Statement (.sclz d a) := encoded rfl (.inr rfl)
theorem spopc (d a : BitVec 6) : Statement (.spopc d a) := encoded rfl (.inr rfl)
theorem sbrev (d a : BitVec 6) : Statement (.sbrev d a) := encoded rfl (.inr rfl)
theorem ssxb (d a : BitVec 6) : Statement (.ssxb d a) := encoded rfl (.inr rfl)
theorem ssxh (d a : BitVec 6) : Statement (.ssxh d a) := encoded rfl (.inr rfl)
theorem smov (d a : BitVec 6) : Statement (.smov d a) := encoded rfl (.inr rfl)
theorem ssetp (d : BitVec 4) (a b : BitVec 6) (r : BitVec 4) : Statement (.ssetp d a b r) := encoded rfl (.inr rfl)
theorem srsys (d : BitVec 6) (n : BitVec 11) : Statement (.srsys d n) := encoded rfl (.inr rfl)
theorem swsys (a : BitVec 6) (n : BitVec 11) : Statement (.swsys a n) := encoded rfl (.inr rfl)
theorem smovv (d : BitVec 6) (a : BitVec 7) (b : BitVec 6) : Statement (.smovv d a b) := encoded rfl (.inr rfl)
theorem ssel (d a b : BitVec 6) (p : BitVec 4) : Statement (.ssel d a b p) := encoded rfl (.inr rfl)
theorem vadd (px : Option Modw) (d a b : BitVec 7) : Statement (.vadd px d a b) := encoded rfl (.inr rfl)
theorem vsub (px : Option Modw) (d a b : BitVec 7) : Statement (.vsub px d a b) := encoded rfl (.inr rfl)
theorem vmul (px : Option Modw) (d a b : BitVec 7) : Statement (.vmul px d a b) := encoded rfl (.inr rfl)
theorem vmulhu (px : Option Modw) (d a b : BitVec 7) : Statement (.vmulhu px d a b) := encoded rfl (.inr rfl)
theorem vmulhs (px : Option Modw) (d a b : BitVec 7) : Statement (.vmulhs px d a b) := encoded rfl (.inr rfl)
theorem vand (px : Option Modw) (d a b : BitVec 7) : Statement (.vand px d a b) := encoded rfl (.inr rfl)
theorem vor (px : Option Modw) (d a b : BitVec 7) : Statement (.vor px d a b) := encoded rfl (.inr rfl)
theorem vxor (px : Option Modw) (d a b : BitVec 7) : Statement (.vxor px d a b) := encoded rfl (.inr rfl)
theorem vshl (px : Option Modw) (d a b : BitVec 7) : Statement (.vshl px d a b) := encoded rfl (.inr rfl)
theorem vshr (px : Option Modw) (d a b : BitVec 7) : Statement (.vshr px d a b) := encoded rfl (.inr rfl)
theorem vsra (px : Option Modw) (d a b : BitVec 7) : Statement (.vsra px d a b) := encoded rfl (.inr rfl)
theorem vmin (px : Option Modw) (d a b : BitVec 7) : Statement (.vmin px d a b) := encoded rfl (.inr rfl)
theorem vmax (px : Option Modw) (d a b : BitVec 7) : Statement (.vmax px d a b) := encoded rfl (.inr rfl)
theorem vminu (px : Option Modw) (d a b : BitVec 7) : Statement (.vminu px d a b) := encoded rfl (.inr rfl)
theorem vmaxu (px : Option Modw) (d a b : BitVec 7) : Statement (.vmaxu px d a b) := encoded rfl (.inr rfl)
theorem vandn (px : Option Modw) (d a b : BitVec 7) : Statement (.vandn px d a b) := encoded rfl (.inr rfl)
theorem vaddh2 (px : Option Modw) (d a b : BitVec 7) : Statement (.vaddh2 px d a b) := encoded rfl (.inr rfl)
theorem vsubh2 (px : Option Modw) (d a b : BitVec 7) : Statement (.vsubh2 px d a b) := encoded rfl (.inr rfl)
theorem vmulh2 (px : Option Modw) (d a b : BitVec 7) : Statement (.vmulh2 px d a b) := encoded rfl (.inr rfl)
theorem vminh2 (px : Option Modw) (d a b : BitVec 7) : Statement (.vminh2 px d a b) := encoded rfl (.inr rfl)
theorem vmaxh2 (px : Option Modw) (d a b : BitVec 7) : Statement (.vmaxh2 px d a b) := encoded rfl (.inr rfl)
theorem vminuh2 (px : Option Modw) (d a b : BitVec 7) : Statement (.vminuh2 px d a b) := encoded rfl (.inr rfl)
theorem vmaxuh2 (px : Option Modw) (d a b : BitVec 7) : Statement (.vmaxuh2 px d a b) := encoded rfl (.inr rfl)
theorem vmad (px : Option Modw) (d a b : BitVec 7) (t : BitVec 1) : Statement (.vmad px d a b t) := encoded rfl (.inr rfl)
theorem vaddi (px : Option Modw) (d a : BitVec 7) (i : Imm11) : Statement (.vaddi px d a i) := encoded rfl (.inr rfl)
theorem vandi (px : Option Modw) (d a : BitVec 7) (i : Imm11) : Statement (.vandi px d a i) := encoded rfl (.inr rfl)
theorem vshli (px : Option Modw) (d a : BitVec 7) (i : BitVec 5) : Statement (.vshli px d a i) := encoded rfl (.inr rfl)
theorem vshri (px : Option Modw) (d a : BitVec 7) (i : BitVec 5) : Statement (.vshri px d a i) := encoded rfl (.inr rfl)
theorem vsrai (px : Option Modw) (d a : BitVec 7) (i : BitVec 5) : Statement (.vsrai px d a i) := encoded rfl (.inr rfl)
theorem vclz (px : Option Modw) (d a : BitVec 7) : Statement (.vclz px d a) := encoded rfl (.inr rfl)
theorem vpopc (px : Option Modw) (d a : BitVec 7) : Statement (.vpopc px d a) := encoded rfl (.inr rfl)
theorem vbrev (px : Option Modw) (d a : BitVec 7) : Statement (.vbrev px d a) := encoded rfl (.inr rfl)
theorem vmov (px : Option Modw) (d a : BitVec 7) : Statement (.vmov px d a) := encoded rfl (.inr rfl)
theorem vnot (px : Option Modw) (d a : BitVec 7) : Statement (.vnot px d a) := encoded rfl (.inr rfl)
theorem viabs (px : Option Modw) (d a : BitVec 7) : Statement (.viabs px d a) := encoded rfl (.inr rfl)
theorem vineg (px : Option Modw) (d a : BitVec 7) : Statement (.vineg px d a) := encoded rfl (.inr rfl)
theorem vbfeu (px : Option Modw) (d a b : BitVec 7) : Statement (.vbfeu px d a b) := encoded rfl (.inr rfl)
theorem vbfes (px : Option Modw) (d a b : BitVec 7) : Statement (.vbfes px d a b) := encoded rfl (.inr rfl)
theorem vbfi (px : Option Modw) (d a b : BitVec 7) : Statement (.vbfi px d a b) := encoded rfl (.inr rfl)
theorem vpermb (px : Option Modw) (d a b : BitVec 7) : Statement (.vpermb px d a b) := encoded rfl (.inr rfl)
theorem vpermbN4 (px : Option Modw) (d a b : BitVec 7) : Statement (.vpermbN4 px d a b) := encoded rfl (.inr rfl)
theorem vsetp (px : Option Modw) (d : BitVec 4) (a b : BitVec 7) (r : BitVec 4) : Statement (.vsetp px d a b r) := encoded rfl (.inr rfl)
theorem vsel (px : Option Modw) (d a b : BitVec 7) (p : BitVec 4) : Statement (.vsel px d a b p) := encoded rfl (.inr rfl)
theorem vmovs (px : Option Modw) (d : BitVec 7) (a : BitVec 6) : Statement (.vmovs px d a) := encoded rfl (.inr rfl)
theorem vins (px : Option Modw) (d : BitVec 7) (a b : BitVec 6) : Statement (.vins px d a b) := encoded rfl (.inr rfl)
theorem vlane (px : Option Modw) (d : BitVec 7) : Statement (.vlane px d) := encoded rfl (.inr rfl)
theorem vmovxr (px : Option Modw) (d : BitVec 7) (a : BitVec 6) : Statement (.vmovxr px d a) := encoded rfl (.inr rfl)
theorem vmovxw (px : Option Modw) (a : BitVec 6) (b : BitVec 7) : Statement (.vmovxw px a b) := encoded rfl (.inr rfl)
theorem vfadd (px : Option Modw) (d a b : BitVec 7) (w : BitVec 1) : Statement (.vfadd px d a b w) := encoded rfl (.inr rfl)
theorem vfsub (px : Option Modw) (d a b : BitVec 7) (w : BitVec 1) : Statement (.vfsub px d a b w) := encoded rfl (.inr rfl)
theorem vfmul (px : Option Modw) (d a b : BitVec 7) (w : BitVec 1) : Statement (.vfmul px d a b w) := encoded rfl (.inr rfl)
theorem vfmin (px : Option Modw) (d a b : BitVec 7) (w : BitVec 1) : Statement (.vfmin px d a b w) := encoded rfl (.inr rfl)
theorem vfmax (px : Option Modw) (d a b : BitVec 7) (w : BitVec 1) : Statement (.vfmax px d a b w) := encoded rfl (.inr rfl)
theorem vfminn (px : Option Modw) (d a b : BitVec 7) (w : BitVec 1) : Statement (.vfminn px d a b w) := encoded rfl (.inr rfl)
theorem vfmaxn (px : Option Modw) (d a b : BitVec 7) (w : BitVec 1) : Statement (.vfmaxn px d a b w) := encoded rfl (.inr rfl)
theorem vfsgn (px : Option Modw) (d a b : BitVec 7) (w : BitVec 1) : Statement (.vfsgn px d a b w) := encoded rfl (.inr rfl)
theorem vfma (px : Option Modw) (d a b : BitVec 7) (w : BitVec 1) : Statement (.vfma px d a b w) := encoded rfl (.inr rfl)
theorem vfsetp (px : Option Modw) (d : BitVec 4) (a b : BitVec 7) (w : BitVec 1) (r : BitVec 3) : Statement (.vfsetp px d a b w r) := encoded rfl (.inr rfl)
theorem vfrcp (px : Option Modw) (d a : BitVec 7) (l : BitVec 4) : Statement (.vfrcp px d a l) := encoded rfl (.inr rfl)
theorem vfrsq (px : Option Modw) (d a : BitVec 7) (l : BitVec 4) : Statement (.vfrsq px d a l) := encoded rfl (.inr rfl)
theorem vfsqrt (px : Option Modw) (d a : BitVec 7) (l : BitVec 4) : Statement (.vfsqrt px d a l) := encoded rfl (.inr rfl)
theorem vfexp2 (px : Option Modw) (d a : BitVec 7) (l : BitVec 4) : Statement (.vfexp2 px d a l) := encoded rfl (.inr rfl)
theorem vflog2 (px : Option Modw) (d a : BitVec 7) (l : BitVec 4) : Statement (.vflog2 px d a l) := encoded rfl (.inr rfl)
theorem vfsin (px : Option Modw) (d a : BitVec 7) (l : BitVec 4) : Statement (.vfsin px d a l) := encoded rfl (.inr rfl)
theorem vfcos (px : Option Modw) (d a : BitVec 7) (l : BitVec 4) : Statement (.vfcos px d a l) := encoded rfl (.inr rfl)
theorem vftanh (px : Option Modw) (d a : BitVec 7) (l : BitVec 4) : Statement (.vftanh px d a l) := encoded rfl (.inr rfl)
theorem vcvt (px : Option Modw) (d a c : BitVec 7) : Statement (.vcvt px d a c) := encoded rfl (.inr rfl)
theorem vfclass (px : Option Modw) (d a : BitVec 7) (t : BitVec 2) : Statement (.vfclass px d a t) := encoded rfl (.inr rfl)
theorem vhadd (px : Option Modw) (d a b : BitVec 7) (w : BitVec 1) : Statement (.vhadd px d a b w) := encoded rfl (.inr rfl)
theorem vhsub (px : Option Modw) (d a b : BitVec 7) (w : BitVec 1) : Statement (.vhsub px d a b w) := encoded rfl (.inr rfl)
theorem vhmul (px : Option Modw) (d a b : BitVec 7) (w : BitVec 1) : Statement (.vhmul px d a b w) := encoded rfl (.inr rfl)
theorem vhfma (px : Option Modw) (d a b : BitVec 7) (w : BitVec 1) : Statement (.vhfma px d a b w) := encoded rfl (.inr rfl)
theorem vhmin (px : Option Modw) (d a b : BitVec 7) (w : BitVec 1) : Statement (.vhmin px d a b w) := encoded rfl (.inr rfl)
theorem vhmax (px : Option Modw) (d a b : BitVec 7) (w : BitVec 1) : Statement (.vhmax px d a b w) := encoded rfl (.inr rfl)
theorem vdot (px : Option Modw) (d a b : BitVec 7) (f : BitVec 4) : Statement (.vdot px d a b f) := encoded rfl (.inr rfl)
theorem vunpk (px : Option Modw) (d a b : BitVec 7) (s : BitVec 3) : Statement (.vunpk px d a b s) := encoded rfl (.inr rfl)
theorem vpack (px : Option Modw) (d a b : BitVec 7) (s : BitVec 3) : Statement (.vpack px d a b s) := encoded rfl (.inr rfl)
theorem vqnt (px : Option Modw) (d a b : BitVec 7) (s : BitVec 3) : Statement (.vqnt px d a b s) := encoded rfl (.inr rfl)
theorem vqntScale (px : Option Modw) (d a : BitVec 7) (s : BitVec 3) : Statement (.vqntScale px d a s) := encoded rfl (.inr rfl)
theorem rngc (px : Option Modw) (d a : BitVec 7) (b : BitVec 5) (l : BitVec 4) : Statement (.rngc px d a b l) := encoded rfl (.inr rfl)
theorem vconf (px : Option Modw) (d a : BitVec 7) (p : BitVec 4) : Statement (.vconf px d a p) := encoded rfl (.inr rfl)
theorem vshfl (px : Option Modw) (d a b : BitVec 7) : Statement (.vshfl px d a b) := encoded rfl (.inr rfl)
theorem vshflx (px : Option Modw) (d a : BitVec 7) (k : BitVec 5) : Statement (.vshflx px d a k) := encoded rfl (.inr rfl)
theorem vshflu (px : Option Modw) (d a : BitVec 7) (k : BitVec 5) : Statement (.vshflu px d a k) := encoded rfl (.inr rfl)
theorem vshfld (px : Option Modw) (d a : BitVec 7) (k : BitVec 5) : Statement (.vshfld px d a k) := encoded rfl (.inr rfl)
theorem vred (px : Option Modw) (d a : BitVec 7) (o t : BitVec 3) (l : BitVec 4) : Statement (.vred px d a o t l) := encoded rfl (.inr rfl)
theorem vscan (px : Option Modw) (d a : BitVec 7) (o t : BitVec 3) (l : BitVec 4) : Statement (.vscan px d a o t l) := encoded rfl (.inr rfl)
theorem vscanx (px : Option Modw) (d a : BitVec 7) (o t : BitVec 3) (l : BitVec 4) : Statement (.vscanx px d a o t l) := encoded rfl (.inr rfl)
theorem pand (px : Option Modw) (d a b : BitVec 4) : Statement (.pand px d a b) := encoded rfl (.inr rfl)
theorem por (px : Option Modw) (d a b : BitVec 4) : Statement (.por px d a b) := encoded rfl (.inr rfl)
theorem pxor (px : Option Modw) (d a b : BitVec 4) : Statement (.pxor px d a b) := encoded rfl (.inr rfl)
theorem pandn (px : Option Modw) (d a b : BitVec 4) : Statement (.pandn px d a b) := encoded rfl (.inr rfl)
theorem porn (px : Option Modw) (d a b : BitVec 4) : Statement (.porn px d a b) := encoded rfl (.inr rfl)
theorem pnot (px : Option Modw) (d a : BitVec 4) : Statement (.pnot px d a) := encoded rfl (.inr rfl)
theorem pfroms (px : Option Modw) (d : BitVec 4) (a : BitVec 6) : Statement (.pfroms px d a) := encoded rfl (.inr rfl)
theorem ptos (d : BitVec 6) (a : BitVec 4) : Statement (.ptos d a) := encoded rfl (.inr rfl)
theorem ppopc (d : BitVec 6) (a : BitVec 4) : Statement (.ppopc d a) := encoded rfl (.inr rfl)
theorem pany (px : Option Modw) (d a : BitVec 4) : Statement (.pany px d a) := encoded rfl (.inr rfl)
theorem pall (px : Option Modw) (d a : BitVec 4) : Statement (.pall px d a) := encoded rfl (.inr rfl)
theorem pfirst (px : Option Modw) (d a : BitVec 4) : Statement (.pfirst px d a) := encoded rfl (.inr rfl)
theorem ld8u (px : Option Modw) (d : BitVec 7) (am : BitVec 1) (a : BitVec 6) (b : BitVec 7) (l : BitVec 4) : Statement (.ld8u px d am a b l) := encoded rfl (.inr rfl)
theorem ld8s (px : Option Modw) (d : BitVec 7) (am : BitVec 1) (a : BitVec 6) (b : BitVec 7) (l : BitVec 4) : Statement (.ld8s px d am a b l) := encoded rfl (.inr rfl)
theorem ld16u (px : Option Modw) (d : BitVec 7) (am : BitVec 1) (a : BitVec 6) (b : BitVec 7) (l : BitVec 4) : Statement (.ld16u px d am a b l) := encoded rfl (.inr rfl)
theorem ld16s (px : Option Modw) (d : BitVec 7) (am : BitVec 1) (a : BitVec 6) (b : BitVec 7) (l : BitVec 4) : Statement (.ld16s px d am a b l) := encoded rfl (.inr rfl)
theorem ld32 (px : Option Modw) (d : BitVec 7) (am : BitVec 1) (a : BitVec 6) (b : BitVec 7) (l : BitVec 4) : Statement (.ld32 px d am a b l) := encoded rfl (.inr rfl)
theorem ld64 (px : Option Modw) (d : BitVec 7) (am : BitVec 1) (a : BitVec 6) (b : BitVec 7) (l : BitVec 4) : Statement (.ld64 px d am a b l) := encoded rfl (.inr rfl)
theorem ld128 (px : Option Modw) (d : BitVec 7) (am : BitVec 1) (a : BitVec 6) (b : BitVec 7) (l : BitVec 4) : Statement (.ld128 px d am a b l) := encoded rfl (.inr rfl)
theorem st8 (px : Option Modw) (d : BitVec 7) (am : BitVec 1) (a : BitVec 6) (b : BitVec 7) (s r : BitVec 1) : Statement (.st8 px d am a b s r) := encoded rfl (.inr rfl)
theorem st16 (px : Option Modw) (d : BitVec 7) (am : BitVec 1) (a : BitVec 6) (b : BitVec 7) (s r : BitVec 1) : Statement (.st16 px d am a b s r) := encoded rfl (.inr rfl)
theorem st32 (px : Option Modw) (d : BitVec 7) (am : BitVec 1) (a : BitVec 6) (b : BitVec 7) (s r : BitVec 1) : Statement (.st32 px d am a b s r) := encoded rfl (.inr rfl)
theorem st64 (px : Option Modw) (d : BitVec 7) (am : BitVec 1) (a : BitVec 6) (b : BitVec 7) (s r : BitVec 1) : Statement (.st64 px d am a b s r) := encoded rfl (.inr rfl)
theorem st128 (px : Option Modw) (d : BitVec 7) (am : BitVec 1) (a : BitVec 6) (b : BitVec 7) (s r : BitVec 1) : Statement (.st128 px d am a b s r) := encoded rfl (.inr rfl)
theorem lds32 (px : Option Modw) (d : BitVec 7) (a : BitVec 6) (b : BitVec 7) (l : BitVec 4) : Statement (.lds32 px d a b l) := encoded rfl (.inr rfl)
theorem lds64 (px : Option Modw) (d : BitVec 7) (a : BitVec 6) (b : BitVec 7) (l : BitVec 4) : Statement (.lds64 px d a b l) := encoded rfl (.inr rfl)
theorem lds128 (px : Option Modw) (d : BitVec 7) (a : BitVec 6) (b : BitVec 7) (l : BitVec 4) : Statement (.lds128 px d a b l) := encoded rfl (.inr rfl)
theorem sts32 (px : Option Modw) (d : BitVec 7) (a : BitVec 6) (b : BitVec 7) : Statement (.sts32 px d a b) := encoded rfl (.inr rfl)
theorem sts64 (px : Option Modw) (d : BitVec 7) (a : BitVec 6) (b : BitVec 7) : Statement (.sts64 px d a b) := encoded rfl (.inr rfl)
theorem sts128 (px : Option Modw) (d : BitVec 7) (a : BitVec 6) (b : BitVec 7) : Statement (.sts128 px d a b) := encoded rfl (.inr rfl)
theorem pld (px : Option Modw) (d : BitVec 7) (a : BitVec 5) (n : BitVec 3) (r : BitVec 1) (l : BitVec 4) : Statement (.pld px d a n r l) := encoded rfl (.inr rfl)
theorem pst (px : Option Modw) (d : BitVec 7) (a : BitVec 5) (n : BitVec 3) : Statement (.pst px d a n) := encoded rfl (.inr rfl)
theorem atom (px : Option Modw) (d a : BitVec 7) (o : BitVec 4) (t : BitVec 3) (l : BitVec 4) : Statement (.atom px d a o t l) := encoded rfl (.inr rfl)
theorem red (px : Option Modw) (d a : BitVec 7) (o : BitVec 4) (t : BitVec 3) : Statement (.red px d a o t) := encoded rfl (.inr rfl)
theorem objcall (px : Option Modw) (d a m : BitVec 7) (l : BitVec 4) : Statement (.objcall px d a m l) := encoded rfl (.inr rfl)
theorem objpost (px : Option Modw) (d a m : BitVec 7) : Statement (.objpost px d a m) := encoded rfl (.inr rfl)
theorem objbind (d : BitVec 6) (a b : BitVec 5) : Statement (.objbind d a b) := encoded rfl (.inr rfl)
theorem objunbind (d : BitVec 6) (a : BitVec 5) : Statement (.objunbind d a) := encoded rfl (.inr rfl)
theorem cret (d a : BitVec 7) : Statement (.cret d a) := encoded rfl (.inr rfl)
theorem cabort (a : BitVec 7) : Statement (.cabort a) := encoded rfl (.inr rfl)
theorem waitv (px : Option Modw) (d : BitVec 6) (a : BitVec 5) (w : BitVec 1) (r : BitVec 4) : Statement (.waitv px d a w r) := encoded rfl (.inr rfl)
theorem bara (px : Option Modw) (d a : BitVec 6) : Statement (.bara px d a) := encoded rfl (.inr rfl)
theorem barw (px : Option Modw) (a b : BitVec 6) : Statement (.barw px a b) := encoded rfl (.inr rfl)
theorem baraw (px : Option Modw) (d a : BitVec 6) : Statement (.baraw px d a) := encoded rfl (.inr rfl)
theorem bari (px : Option Modw) (a b : BitVec 6) : Statement (.bari px a b) := encoded rfl (.inr rfl)
theorem fenceAcq (px : Option Modw) : Statement (.fenceAcq px) := encoded rfl (.inr rfl)
theorem fenceRel (px : Option Modw) : Statement (.fenceRel px) := encoded rfl (.inr rfl)
theorem fenceFull (px : Option Modw) : Statement (.fenceFull px) := encoded rfl (.inr rfl)
theorem xfenceAcq (px : Option Modw) (m : BitVec 16) : Statement (.xfenceAcq px m) := encoded rfl (.inr rfl)
theorem xfenceRel (px : Option Modw) (m : BitVec 16) : Statement (.xfenceRel px m) := encoded rfl (.inr rfl)
theorem xfenceFull (px : Option Modw) (m : BitVec 16) : Statement (.xfenceFull px m) := encoded rfl (.inr rfl)
theorem deq (px : Option Modw) (d : BitVec 4) (a : BitVec 6) (l : BitVec 4) : Statement (.deq px d a l) := encoded rfl (.inr rfl)
theorem enq (px : Option Modw) (d : BitVec 7) (a : BitVec 6) : Statement (.enq px d a) := encoded rfl (.inr rfl)
theorem deqt (px : Option Modw) (d : BitVec 4) (a : BitVec 6) (p : BitVec 4) : Statement (.deqt px d a p) := encoded rfl (.inr rfl)
theorem launch (px : Option Modw) (d a : BitVec 5) (b : BitVec 6) : Statement (.launch px d a b) := encoded rfl (.inr rfl)
theorem launchi (px : Option Modw) (d a : BitVec 5) (b : BitVec 6) : Statement (.launchi px d a b) := encoded rfl (.inr rfl)
theorem cwait (px : Option Modw) (a : BitVec 6) : Statement (.cwait px a) := encoded rfl (.inr rfl)
theorem gangset (a : BitVec 5) : Statement (.gangset a) := encoded rfl (.inr rfl)
theorem mma (px : Option Mxw) (d : BitVec 5) (a b : BitVec 4) (s : BitVec 3) : Statement (.mma px d a b s) := encoded rfl (.inl rfl)
theorem mmaGang (px : Option Mxw) (d : BitVec 5) (a b : BitVec 4) (s : BitVec 3) : Statement (.mmaGang px d a b s) := encoded rfl (.inl rfl)
theorem mmas (px : Option Mxw) (d : BitVec 5) (a b : BitVec 4) (s : BitVec 3) : Statement (.mmas px d a b s) := encoded rfl (.inl rfl)
theorem mmap (px : Option Mxw) (d : BitVec 5) (b : BitVec 4) (s : BitVec 3) : Statement (.mmap px d b s) := encoded rfl (.inl rfl)
theorem mtr (px : Option Mxw) (d : BitVec 5) (a b : BitVec 4) (s : BitVec 3) : Statement (.mtr px d a b s) := encoded rfl (.inl rfl)
theorem mzero (px : Option Mxw) (d : BitVec 5) : Statement (.mzero px d) := encoded rfl (.inl rfl)
theorem mlda (px : Option Mxw) (d : BitVec 5) : Statement (.mlda px d) := encoded rfl (.inl rfl)
theorem msta (px : Option Mxw) (d : BitVec 5) : Statement (.msta px d) := encoded rfl (.inl rfl)
theorem mnorm (px : Option Mxw) (d : BitVec 5) : Statement (.mnorm px d) := encoded rfl (.inl rfl)
theorem mbatch (d : BitVec 6) : Statement (.mbatch d) := encoded rfl (.inr rfl)
theorem mwait (px : Option Modw) (a : BitVec 6) : Statement (.mwait px a) := encoded rfl (.inr rfl)
theorem mlbl (px : Option Modw) (d : BitVec 3) (a : BitVec 5) : Statement (.mlbl px d a) := encoded rfl (.inr rfl)
theorem mstatMax (px : Option Modw) (d : BitVec 7) (a : BitVec 6) : Statement (.mstatMax px d a) := encoded rfl (.inr rfl)
theorem mstatSum (px : Option Modw) (d : BitVec 7) (a : BitVec 6) : Statement (.mstatSum px d a) := encoded rfl (.inr rfl)
theorem mstatFlags (px : Option Modw) (d : BitVec 7) (a : BitVec 6) : Statement (.mstatFlags px d a) := encoded rfl (.inr rfl)
theorem mstatSkip (px : Option Modw) (d : BitVec 7) (a : BitVec 6) : Statement (.mstatSkip px d a) := encoded rfl (.inr rfl)
theorem hbind (px : Option Modw) (d : BitVec 4) (a : BitVec 5) (b : BitVec 6) : Statement (.hbind px d a b) := encoded rfl (.inr rfl)
theorem feed (px : Option Modw) (d : BitVec 6) (a b : BitVec 4) (c t : BitVec 1) : Statement (.feed px d a b c t) := encoded rfl (.inr rfl)
theorem feedWb (px : Option Modw) (d : BitVec 6) (a b : BitVec 4) (c t : BitVec 1) : Statement (.feedWb px d a b c t) := encoded rfl (.inr rfl)
theorem cpy (px : Option Modw) (d : BitVec 6) (a : BitVec 5) (b : BitVec 6) : Statement (.cpy px d a b) := encoded rfl (.inr rfl)
theorem qfence (a : BitVec 6) : Statement (.qfence a) := encoded rfl (.inr rfl)
theorem qwait (px : Option Modw) (a b : BitVec 6) : Statement (.qwait px a b) := encoded rfl (.inr rfl)
theorem coll (px : Option Modw) (d : BitVec 6) (a : BitVec 5) (b : BitVec 6) : Statement (.coll px d a b) := encoded rfl (.inr rfl)
theorem paddc (px : Option Modw) (d : BitVec 6) (a b l : BitVec 4) : Statement (.paddc px d a b l) := encoded rfl (.inr rfl)
theorem lsupd (d : BitVec 5) (a : BitVec 6) : Statement (.lsupd d a) := encoded rfl (.inr rfl)
theorem snap : Statement .snap := encoded rfl (.inr rfl)
theorem trapinfo (d : BitVec 4) (b : BitVec 2) : Statement (.trapinfo d b) := encoded rfl (.inr rfl)
theorem rdver (d : BitVec 6) (b : BitVec 4) : Statement (.rdver d b) := encoded rfl (.inr rfl)
theorem powerOnReset : Statement .powerOnReset := event rfl
theorem deviceFunctionReset : Statement .deviceFunctionReset := event rfl
theorem bringUpStageAdvance (ok : Bool) (given : StageInput) : Statement (.bringUpStageAdvance ok given) := event rfl
theorem firmwareUpdateWrite (image : Firmware) : Statement (.firmwareUpdateWrite image) := event rfl
theorem attestationNonceWrite (nonce : BitVec 256) : Statement (.attestationNonceWrite nonce) := event rfl
theorem partitionAssign (a : Assignment) : Statement (.partitionAssign a) := event rfl
theorem registerWrite (p off : Nat) (val : Dword) : Statement (.registerWrite p off val) := event rfl
theorem preEmpt (p : Nat) : Statement (.preEmpt p) := event rfl
theorem drainComplete (p : Nat) : Statement (.drainComplete p) := event rfl
theorem swapBegin (p : Nat) : Statement (.swapBegin p) := event rfl
theorem swapGraceExpiry (p : Nat) : Statement (.swapGraceExpiry p) := event rfl
theorem contextExchange (p : Nat) : Statement (.contextExchange p) := event rfl
theorem resetDeadlineExpiry (p : Nat) : Statement (.resetDeadlineExpiry p) := event rfl
theorem spill (p : Nat) : Statement (.spill p) := event rfl
theorem fill (p : Nat) : Statement (.fill p) := event rfl
theorem invalidate (p : Nat) : Statement (.invalidate p) := event rfl
theorem snapAllow (p : Nat) (on : Bool) : Statement (.snapAllow p on) := event rfl
theorem run (p : Nat) : Statement (.run p) := event rfl
theorem launchSubmit (p q : Nat) (record : List Byte) : Statement (.launchSubmit p q record) := event rfl
theorem faultAnswer (p : Nat) (seq : Word) (fail : Bool) : Statement (.faultAnswer p seq fail) := event rfl
theorem faultConsumedWrite (p : Nat) (n : Word) : Statement (.faultConsumedWrite p n) := event rfl
theorem errorConsumedWrite (p : Nat) (n : Word) : Statement (.errorConsumedWrite p n) := event rfl
theorem orreryTakeRecord (p q : Nat) : Statement (.orreryTakeRecord p q) := event rfl
theorem queueFencePass (p q : Nat) : Statement (.queueFencePass p q) := event rfl
theorem teamPlacement (p grid core : Nat) : Statement (.teamPlacement p grid core) := event rfl
theorem gangSetPlacement (p grid : Nat) (cores : List Nat) : Statement (.gangSetPlacement p grid cores) := event rfl
theorem gridRetirement (p grid : Nat) : Statement (.gridRetirement p grid) := event rfl
theorem fragmentPromotion (g f : Nat) : Statement (.fragmentPromotion g f) := event rfl
theorem teamEviction (team : Nat) : Statement (.teamEviction team) := event rfl
theorem relaunchPlacement (team core : Nat) : Statement (.relaunchPlacement team core) := event rfl
theorem forcedEviction (team : Nat) : Statement (.forcedEviction team) := event rfl
theorem forcedStopDeadline (team : Nat) : Statement (.forcedStopDeadline team) := event rfl
theorem fragmentFusion (g split : Nat) : Statement (.fragmentFusion g split) := event rfl
theorem resultLanding (g f id : Nat) : Statement (.resultLanding g f id) := event rfl
theorem objcallReplyLanding (g f id : Nat) : Statement (.objcallReplyLanding g f id) := event rfl
theorem atomReplyLanding (g f id : Nat) : Statement (.atomReplyLanding g f id) := event rfl
theorem homeRequestArrival (home : Nat) (ids : List Nat) : Statement (.homeRequestArrival home ids) := event rfl
theorem combiningWindowExpiry (home bin : Nat) : Statement (.combiningWindowExpiry home bin) := event rfl
theorem batchStart (home sg : Nat) : Statement (.batchStart home sg) := event rfl
theorem fastPathBatch (home : Nat) : Statement (.fastPathBatch home) := event rfl
theorem bindRequest (home : Nat) : Statement (.bindRequest home) := event rfl
theorem unbindRequest (home : Nat) : Statement (.unbindRequest home) := event rfl
theorem alloc (home : Nat) : Statement (.alloc home) := event rfl
theorem share (home : Nat) : Statement (.share home) := event rfl
theorem release (home : Nat) : Statement (.release home) := event rfl
theorem append (home : Nat) : Statement (.append home) := event rfl
theorem feedStart (core feeder : Nat) : Statement (.feedStart core feeder) := event rfl
theorem streamTileDelivery (core feeder : Nat) : Statement (.streamTileDelivery core feeder) := event rfl
theorem deferredDataFetch (core fifo : Nat) : Statement (.deferredDataFetch core fifo) := event rfl
theorem copy (p q : Nat) : Statement (.copy p q) := event rfl
theorem gather (p q : Nat) : Statement (.gather p q) := event rfl
theorem scatter (p q : Nat) : Statement (.scatter p q) := event rfl
theorem scatred (p q : Nat) : Statement (.scatred p q) := event rfl
theorem transpose (p q : Nat) : Statement (.transpose p q) := event rfl
theorem convert (p q : Nat) : Statement (.convert p q) := event rfl
theorem pad (p q : Nat) : Statement (.pad p q) := event rfl
theorem migrate (p q : Nat) : Statement (.migrate p q) := event rfl
theorem matrixEngineStart (core g : Nat) : Statement (.matrixEngineStart core g) := event rfl
theorem rendezvousTimeout (g : Nat) : Statement (.rendezvousTimeout g) := event rfl
theorem mwaitRelease (g f : Nat) : Statement (.mwaitRelease g f) := event rfl
theorem barrierWaitRelease (g f : Nat) : Statement (.barrierWaitRelease g f) := event rfl
theorem waitvRelease (g f : Nat) : Statement (.waitvRelease g f) := event rfl
theorem tier1WaitvPoll (g f : Nat) : Statement (.tier1WaitvPoll g f) := event rfl
theorem phaseStart (p grid : Nat) : Statement (.phaseStart p grid) := event rfl
theorem phaseCommit (p grid : Nat) : Statement (.phaseCommit p grid) := event rfl
theorem quantumEnd (g : Nat) : Statement (.quantumEnd g) := event rfl
theorem ephemerisDeadlock (p grid : Nat) : Statement (.ephemerisDeadlock p grid) := event rfl
theorem homeLogicalTimeApply (home : Nat) : Statement (.homeLogicalTimeApply home) := event rfl
theorem abajaFlitReceive (port : Nat) (flit : Flit) : Statement (.abajaFlitReceive port flit) := event rfl
theorem flitRetransmitTimeout (port : Nat) : Statement (.flitRetransmitTimeout port) := event rfl
theorem pause (port : Nat) (lane : BitVec 2) : Statement (.pause port lane) := event rfl
theorem resume (port : Nat) (lane : BitVec 2) : Statement (.resume port lane) := event rfl
theorem portTraining (port : Nat) (version : BitVec 16) (peer : BitVec 12) : Statement (.portTraining port version peer) := event rfl
theorem remoteRequestArrival (port : Nat) : Statement (.remoteRequestArrival port) := event rfl
theorem hostCxlAccess (p : HostAccess) (write : Bool) (addr : Dword) (data : List Byte) : Statement (.hostCxlAccess p write addr data) := event rfl
theorem poolAccessTimeout (hostPort : Nat) : Statement (.poolAccessTimeout hostPort) := event rfl
theorem allgather (p q : Nat) (others : List Member) : Statement (.allgather p q others) := event rfl
theorem redscat (p q : Nat) (others : List Member) : Statement (.redscat p q others) := event rfl
theorem allred (p q : Nat) (others : List Member) : Statement (.allred p q others) := event rfl
theorem bcast (p q : Nat) (others : List Member) : Statement (.bcast p q others) := event rfl
theorem collectiveTimeout (p q : Nat) : Statement (.collectiveTimeout p q) := event rfl
theorem snapshotTrigger (fn : Nat) : Statement (.snapshotTrigger fn) := event rfl
theorem snapin : Statement .snapin := event rfl
theorem snapshotLatch : Statement .snapshotLatch := event rfl
theorem snapshotRelease (fn : Nat) : Statement (.snapshotRelease fn) := event rfl
theorem fillCommand (p q : Nat) : Statement (.fillCommand p q) := event rfl
theorem undefinedEncoding : Statement .undefinedEncoding := event rfl
theorem powerLoss : Statement .powerLoss := event rfl

end Sys2Proof.Laws.Encoding
end

