-- ==== Sys2Proof/Laws/Shared.lean ====
section
/-!
SUPPORT. What the small shared operations of ports, queues and turns answer, said once: the sequence numbers of virtual lanes, the completed run
of a queue, the choice of the event that happens, what an atomic leaves in memory, and the batches of logical time.
-/

namespace Sys2Proof.Machine

/-- One flit on a lane raises that lane's number. -/
theorem laneSeq_bumpLane (l : List (BitVec 12)) (a : BitVec 2) (h : a.toNat < l.length) : laneSeq (bumpLane l a) a = laneSeq l a + 1 := by
  simp [laneSeq, bumpLane, List.getD, h]

/-- One flit on a lane leaves the other lanes' numbers: no virtual lane waits for another (19 R425). -/
theorem laneSeq_bumpLane_other (l : List (BitVec 12)) {a b : BitVec 2} (h : a ≠ b) : laneSeq (bumpLane l a) b = laneSeq l b := by
  have hn : a.toNat ≠ b.toNat := fun e => h (BitVec.eq_of_toNat_eq e)
  simp [laneSeq, bumpLane, List.getD, hn]

/-- A port keeps a number for each of its lanes. -/
@[simp] theorem bumpLane_length (l : List (BitVec 12)) (a : BitVec 2) : (bumpLane l a).length = l.length := by simp [bumpLane]

/-- The completed run ends at the number it had, or at the successor of a number on it: it never skips one that is not complete (10 R262). -/
theorem advanceDone_stops (fuel : Nat) (d : Word) (l : List Word) (h : l.contains (nextNumber d) = false) : advanceDone fuel d l = (d, l) := by
  cases fuel <;> simp only [advanceDone, h, Bool.false_eq_true, if_false]

/-- A completed successor joins the run. -/
theorem advanceDone_goes (fuel : Nat) (d : Word) (l : List Word) (h : l.contains (nextNumber d) = true) :
    advanceDone (fuel + 1) d l = advanceDone fuel (nextNumber d) (l.filter fun n => n != nextNumber d) := by
  simp only [advanceDone, h, if_true]

/-- Turning a list about keeps what is in it. -/
@[simp] theorem mem_rotate {α : Type} (k : Nat) (l : List α) (x : α) : x ∈ rotate k l ↔ x ∈ l := by
  unfold rotate
  rw [List.mem_append, or_comm, ← List.mem_append, List.take_append_drop]

/-- The event that is chosen is one of those named, and it happens. -/
theorem firstEvent_some {s : State} {k : Nat} {l : List Happening} {h : Happening} (e : firstEvent s k l = some h) : h ∈ l ∧ happens s h = true :=
  ⟨(mem_rotate k l h).mp (List.mem_of_find?_eq_some e), List.find?_some e⟩

/-- No event is chosen only where none of those named would change the machine. -/
theorem firstEvent_none {s : State} {k : Nat} {l : List Happening} (e : firstEvent s k l = none) (h : Happening) (m : h ∈ l) : happens s h = false := by
  have := List.find?_eq_none.mp e h ((mem_rotate k l h).mpr m)
  simpa using this

/-- What is kept for the engines that run, and what a phase keeps of its start and notes among the writes of a team, leaves memory alone. -/
@[simp] theorem keepPast_mem (s : State) (own : EngQueue) (l : Loc) (n : Nat) : (keepPast s own l n).mem = s.mem := by
  cases l with
  | slice => rfl
  | mem k =>
    show (if _ then _ else _ : State).mem = _
    split <;> rfl

/-- Memory as a phase keeps it from its start. -/
@[simp] theorem keepStart_mem (s : State) (d : Option Nat) (k n : Nat) : (keepStart s d k n).mem = s.mem := by
  cases d <;> rfl

/-- A write for everyone in a phase is noted, and no more. -/
@[simp] theorem noteShared_mem (s : State) (r : Request) (k : Nat) (bs : List Byte) : (noteShared s r k bs).mem = s.mem := by
  unfold noteShared
  split
  · rfl
  · show (match teamOfAtomic s r with | none => _ | some t => _ : State).mem = _
    split <;> simp [State.modTeam]

/-- Outside a phase nothing is noted. -/
theorem noteShared_untimed (s : State) (r : Request) (k : Nat) (bs : List Byte) (h : r.time = none) : noteShared s r k bs = s := by
  simp [noteShared, h]

/-- The same of a write that the method of a batch makes. -/
@[simp] theorem noteBatch_mem (s : State) (rs : List Request) (l : Loc) (bs : List Byte) : (noteBatch s rs l bs).mem = s.mem := by
  cases l with
  | slice => rfl
  | mem k =>
    simp only [noteBatch]
    induction askers s rs generalizing s with
    | nil => rfl
    | cons r rest ih => rw [List.foldl_cons, ih, noteShared_mem]

/-- The lanes of one store that fall into a word are one request: where they cover it whole, so does each of its pieces, wherever in the word it
lies (08 R215, R224). -/
theorem coversWord_word (ps : List Piece) (k : Nat) : coversWord ps (.mem k) = coversWord ps (.mem (k / 16 * 16)) := by
  unfold coversWord Loc.word
  have h : k / 16 * 16 / 16 * 16 = k / 16 * 16 := by omega
  simp only [h]

/-- An error that is cleared leaves memory. -/
@[simp] theorem clearErrors_mem (s : State) (l : Loc) (n : Nat) : (clearErrors s l n).mem = s.mem := by cases l <;> rfl

/-- What an atomic leaves keeps the canonical form, in a phase too. -/
theorem atomicWrite_wf {s : State} (h : MemOk s) (q : Nat) (r : Request) (l : Loc) (bs : List Byte) : MemOk (atomicWrite s q r l bs) := by
  unfold atomicWrite
  split
  · split
    · unfold writeSlice; split
      · exact writePhase_wf h ..
      · exact writeAt_wf h ..
    · exact writeAt_wf h ..
  · apply writeAt_wf
    unfold MemOk
    rw [noteShared_mem]
    exact h

/-- A batch of logical time has 32 requests at most (11 R287). -/
theorem cutBatch_length (l : List Request) : (cutBatch l).length ≤ 32 := by
  cases l with
  | nil => exact Nat.zero_le _
  | cons r rest =>
    simp only [cutBatch]
    split
    · exact Nat.le_of_ble_eq_true rfl
    · exact Nat.succ_le_succ (Nat.le_trans (List.length_take_le _ _) (Nat.le_of_ble_eq_true rfl))

/-- A group that holds nothing sees what its base gives. -/
@[simp] theorem heldByte_nil (base : Loc → Byte) (l : Loc) : heldByte [] base l = base l := rfl

/-- A port whose decoders the host has not written keeps those that it has. -/
@[simp] theorem setDecoders_nil (old : List HdmDecoder) (port : Nat) : setDecoders old port [] = old := rfl

end Sys2Proof.Machine
end

