-- ==== Sys2Proof/Laws/Unit.lean ====
section
/-!
SUPPORT. The runner of a unit: what the checks and the end of a unit come to, once for every instruction.
-/

namespace Sys2Proof.Machine

/-- A unit of a fragment that issues runs in that fragment's context. -/
theorem ctx?_issues {s : State} {g : Group} {f : Frag} (h : Issues s g f) : ctx? s = some { s := s, g := g, f := f, next := f.pc } := by
  simp [ctx?, h.cur, h.group, h.frag]

/-- The runner answers a state for a fragment that issues. -/
theorem runUnit_issues {s : State} {g : Group} {f : Frag} (h : Issues s g f) (spec : Ctx → UnitSpec) (body : Ctx → UnitRes) :
    runUnit s spec body =
      .next (issueUnit (ctxOf s g f (spec { s := s, g := g, f := f, next := f.pc }).words)
        (spec { s := s, g := g, f := f, next := f.pc }) body) := by
  simp [runUnit, ctx?_issues h, ctxOf]

/-- Whether a unit touches a register, by its lists. -/
theorem touches_named (u : UnitSpec) (r : RegRef) : u.touches r = named u.vs u.ss r := by cases r <;> rfl

/-- Nothing that a release orders before itself holds it. -/
theorem released_holds {c : Ctx} {m : BitVec 16} {far : Bool} (h : m = 0 ∨ Released c.s c.g m far) : releaseHolds c m far = false := by
  rcases h with h | h | ⟨ha, hc, hw⟩
  · simp [releaseHolds, h]
  · have : c.g.logical.isNone = false := by simpa using h
    simp [releaseHolds, this]
  · have h1 : ((openAtomics c.s c.g.id).any fun r => m &&& r.streams != 0) = false := by
      rw [List.any_eq_false]; intro r hr; simp [Request.streams, ha r hr]
    have h2 : (c.g.openCommits.any fun o => m.getLsbD o.str.toNat) = false := by
      rw [List.any_eq_false]; intro o ho; simp [hc o ho]
    have h3 : (far && farOpen c.g m) = false := by
      cases far with
      | false => rfl
      | true =>
        obtain ⟨hwire, hout⟩ := hw rfl
        simp only [farOpen, Bool.true_and, Bool.or_eq_false_iff, List.any_eq_false]
        refine ⟨fun x hx => by simp [hwire x hx], fun x hx => ?_⟩
        rw [Bool.not_eq_true, List.any_eq_false]
        intro o ho
        by_cases hk : o.kind = .atom <;> by_cases hf : o.flits = [] <;> simp [hk, hf, Out.streams, hout x hx o ho]
    simp only [releaseHolds, h1, h2, h3]; simp

/-- A unit that nothing holds back passes steps 3 to 7 of the order of detection. -/
theorem preCheck_go {c : Ctx} {u : UnitSpec} (hc : Clear c.g c.f u.vs u.ss) (hp : u.path = false) (hpr : u.priv = false)
    (hr : u.regx = false) (hs : u.slot = none) (hu : u.unif = false) (hm : u.noMethod = true → c.g.role = .ordinary)
    (hh : u.noHandler = true → c.g.handler = none) (hrel : u.rel = 0 ∨ Released c.s c.g u.rel u.far) : preCheck c u = .go := by
  have meets : ∀ o : Out, u.meets o = true ↔ ∃ r ∈ o.regs, named u.vs u.ss r = true := by
    intro o; simp [UnitSpec.meets, touches_named]
  have apart : ∀ o ∈ c.f.outs, ¬o.landed = true → u.meets o = false := by
    intro o ho hl
    cases hme : u.meets o with
    | false => rfl
    | true =>
      obtain ⟨r, hr1, hr2⟩ := (meets o).mp hme
      exact absurd (hc.own o ho r hr1 hr2).1 hl
  have h1 : mustWait c u = false := by
    simp only [mustWait, hp, Bool.false_and, Bool.false_or, Bool.or_eq_false_iff, List.any_eq_false]
    refine ⟨fun o ho => ?_, fun x hx => ?_⟩
    · by_cases hl : o.landed = true
      · simp [hl]
      · have hl' : o.landed = false := by simpa using hl
        rcases hc.room o ho hl' with hi | hw
        · have : u.meets o = false := apart o ho hl
          simp [hi, this]
        · by_cases hi : o.interlock = true
          · have : u.meets o = false := apart o ho hl
            simp [hi, this]
          · have : (o.window == 0) = false := by simp; omega
            simp [hi, this]
    · by_cases hid : x.id = c.f.id
      · simp [hid]
      · have hany : (x.outs.any fun o => !o.landed && u.meets o && !(c.f.outs.any fun y => y.id == o.id)) = false := by
          rw [List.any_eq_false]
          intro o ho
          by_cases hme : u.meets o = true
          · obtain ⟨r, hr1, hr2⟩ := (meets o).mp hme
            rcases hc.others x hx hid o ho r hr1 hr2 with hl | ⟨y, hy, hyo⟩
            · simp [hl]
            · have : (c.f.outs.any fun y => y.id == o.id) = true := by
                rw [List.any_eq_true]; exact ⟨y, hy, by simp [hyo]⟩
              simp [this]
          · simp [hme]
        simp [hany]
  have h2 : inWindow c u = false := by
    simp only [inWindow, hp, Bool.not_false, Bool.true_and, List.any_eq_false]
    intro o ho
    by_cases hme : u.meets o = true
    · obtain ⟨r, hr1, hr2⟩ := (meets o).mp hme
      rcases (hc.own o ho r hr1 hr2).2 with hi | hw
      · simp [hi]
      · simp [hw]
    · simp [hme]
  have h3 : (u.vs.any fun n => decide (8 * c.g.granules ≤ n)) = false := by
    rw [List.any_eq_false]; intro n hn
    have := hc.inside n hn
    simp; omega
  have h4 : (u.noMethod && c.g.role != .ordinary) = false := by
    cases hn : u.noMethod with
    | false => rfl
    | true => simp [hm hn]
  have h5 : (u.noHandler && c.g.handler.isSome) = false := by
    cases hn : u.noHandler with
    | false => rfl
    | true => simp [hh hn]
  have h6 := released_holds hrel
  simp only [preCheck, h1, h2, h3, h4, h5, h6, hpr, hr, hs, hu]
  simp

/-- A unit that ends a yield-free path and that nothing holds back passes the checks. -/
theorem preCheck_go_path {c : Ctx} {u : UnitSpec} (hc : ClearPath c.g c.f u.vs u.ss) (hp : u.path = true) (hpr : u.priv = false)
    (hr : u.regx = false) (hs : u.slot = none) (hu : u.unif = false) (hm : u.noMethod = true → c.g.role = .ordinary)
    (hh : u.noHandler = true → c.g.handler = none) (hrel : u.rel = 0 ∨ Released c.s c.g u.rel u.far) : preCheck c u = .go := by
  have meets : ∀ o : Out, u.meets o = true ↔ ∃ r ∈ o.regs, named u.vs u.ss r = true := by
    intro o; simp [UnitSpec.meets, touches_named]
  have h1 : mustWait c u = false := by
    simp only [mustWait, hp, Bool.true_and, Bool.or_eq_false_iff, List.any_eq_false]
    refine ⟨⟨fun o ho => by simp [hc.landed o ho], fun o ho => by simp [hc.landed o ho]⟩, fun x hx => ?_⟩
    by_cases hid : x.id = c.f.id
    · simp [hid]
    · have hany : (x.outs.any fun o => !o.landed && u.meets o && !(c.f.outs.any fun y => y.id == o.id)) = false := by
        rw [List.any_eq_false]
        intro o ho
        by_cases hme : u.meets o = true
        · obtain ⟨r, hr1, hr2⟩ := (meets o).mp hme
          simp [hc.others x hx hid o ho r hr1 hr2]
        · simp [hme]
      simp [hany]
  have h2 : inWindow c u = false := by simp [inWindow, hp]
  have h3 : (u.vs.any fun n => decide (8 * c.g.granules ≤ n)) = false := by
    rw [List.any_eq_false]; intro n hn
    have := hc.inside n hn
    simp; omega
  have h4 : (u.noMethod && c.g.role != .ordinary) = false := by
    cases hn : u.noMethod with
    | false => rfl
    | true => simp [hm hn]
  have h5 : (u.noHandler && c.g.handler.isSome) = false := by
    cases hn : u.noHandler with
    | false => rfl
    | true => simp [hh hn]
  have h6 := released_holds hrel
  simp only [preCheck, h1, h2, h3, h4, h5, h6, hpr, hr, hs, hu]
  simp

/-- Counting an issue changes the snapshot registers only. -/
theorem countIssue_eq (s : State) (g : Group) : ∃ l, countIssue s g = { s with dev := { s.dev with live := l } } := by
  unfold countIssue
  split
  · exact ⟨_, rfl⟩
  · exact ⟨s.dev.live, rfl⟩

/-- What the end of a unit changes in a group: fragments, the region counter and logical time. -/
theorem endGroup_eq (c : Ctx) (u : UnitSpec) (s : State) (g : Group) (f : Frag) (pc : Dword) :
    endGroup c u s g f pc = { g with
      frags := (endGroup c u s g f pc).frags
      logical := if c.f.counted then g.logical else g.logical.map (countUnit (quantumOf s g) u.quantum c.f.pc c.f.id)
      regions := if u.region && !f.unperformed then g.regions + 1 else g.regions } := by
  unfold endGroup countEntry
  cases (u.region && !f.unperformed) <;> rfl

/-- The fragments of a group after one has been put. -/
theorem findBy_put_frag {l : List Frag} {x f : Frag} {n : Nat} (hf : findBy Frag.id l n = some f) (hx : x.id = n) (k : Nat) :
    findBy Frag.id (putBy Frag.id l x) k = if k = n then some x else findBy Frag.id l k := by
  rw [findBy_putBy, hx]
  by_cases hk : k = n
  · subst hk; rw [if_pos rfl, if_pos rfl, hf]; rfl
  · rw [if_neg hk, if_neg hk]

/-- A fragment after the retired count at a region's entry. -/
def entered (old units : Nat) (x : Frag) : Frag :=
  if x.region.count.toNat = old then x else { x with region := { x.region with units := units } }

/-- The region that follows one that a unit ends. -/
def nextRegion (g : Group) (f : Frag) (pc : Dword) : Region :=
  { entry := pc, base := g.window, count := g.regions + 1, join := f.join, units := retiredOf g.logical }

/-- The fragment that issued, with the region that its unit ended kept for a release of Ephemeris mode. -/
def keptFrag (c : Ctx) (u : UnitSpec) (s : State) (g : Group) (f : Frag) (pc : Dword) : Frag :=
  if g.logical.isSome then { endFragment c u s f pc with prior := some f.region } else endFragment c u s f pc

/-- The fragment that issued, at the end of its unit. -/
def endedFrag (c : Ctx) (u : UnitSpec) (s : State) (g : Group) (f : Frag) (pc : Dword) : Frag :=
  if u.region && !f.unperformed then { keptFrag c u s g f pc with region := nextRegion g f pc } else keptFrag c u s g f pc

/-- The fragments of the group at the end of a unit: the one that issued, and the others as they were. -/
theorem endGroup_frag (c : Ctx) (u : UnitSpec) (s : State) (g : Group) (f : Frag) (pc : Dword) (hf : g.frag? c.f.id = some f) (k : Nat) :
    (endGroup c u s g f pc).frag? k =
      if k = c.f.id then some (entered c.f.region.count.toNat (retiredOf (endGroup c u s g f pc).logical) (endedFrag c u s g f pc))
      else g.frag? k := by
  have hid : f.id = c.f.id := findBy_key hf
  have hkid : (keptFrag c u s g f pc).id = c.f.id := by unfold keptFrag; split <;> exact hid
  have hjoin : (keptFrag c u s g f pc).join = f.join := by unfold keptFrag; split <;> rfl
  have hbase : ∀ j, findBy Frag.id (if u.region && !f.unperformed then newRegion (g.setFrag (keptFrag c u s g f pc)) (keptFrag c u s g f pc) pc
        else g.setFrag (keptFrag c u s g f pc)).frags j = if j = c.f.id then some (endedFrag c u s g f pc) else g.frag? j := by
    intro j
    unfold endedFrag
    cases (u.region && !f.unperformed) with
    | false => exact findBy_put_frag (x := keptFrag c u s g f pc) hf hkid j
    | true =>
      have h1 : findBy Frag.id (putBy Frag.id g.frags (keptFrag c u s g f pc)) c.f.id = some (keptFrag c u s g f pc) := by
        rw [findBy_put_frag (x := keptFrag c u s g f pc) hf hkid, if_pos rfl]
      have h2 := findBy_put_frag (x := { keptFrag c u s g f pc with region := nextRegion g f pc }) h1 hkid j
      have hn : newRegion (g.setFrag (keptFrag c u s g f pc)) (keptFrag c u s g f pc) pc =
          { g with frags := putBy Frag.id (putBy Frag.id g.frags (keptFrag c u s g f pc)) { keptFrag c u s g f pc with region := nextRegion g f pc }
                   regions := g.regions + 1 } := by
        unfold newRegion nextRegion; rw [← hjoin]; rfl
      rw [if_pos rfl, hn]
      refine h2.trans ?_
      by_cases hj : j = c.f.id
      · rw [if_pos hj, if_pos hj]; rfl
      · rw [if_neg hj, if_neg hj]; exact (findBy_put_frag (x := keptFrag c u s g f pc) hf hkid j).trans (if_neg hj)
  have hall := findBy_modBy Frag.id (if u.region && !f.unperformed then newRegion (g.setFrag (keptFrag c u s g f pc)) (keptFrag c u s g f pc) pc
        else g.setFrag (keptFrag c u s g f pc)).frags c.f.id k
        (fun y => entered c.f.region.count.toNat (retiredOf (endGroup c u s g f pc).logical) y)
        (fun y => by unfold entered; split <;> rfl)
  refine (Eq.trans ?_ hall).trans ?_
  · rfl
  · rw [hbase]
    by_cases hk : k = c.f.id
    · rw [if_pos hk, if_pos hk, if_pos hk]; rfl
    · rw [if_neg hk, if_neg hk, if_neg hk]

/-- What a unit ends, by its specification. -/
def endsOf (u : UnitSpec) : Ends := { path := u.path, region := u.region, quantum := u.quantum }

/-- The end of a unit, as its frame says it. -/
theorem finish_ends {s s1 : State} {g g1 : Group} {f f1 : Frag} (n : Nat) (u : UnitSpec) (pc : Dword)
    (hg : s1.group? g.id = some g1) (hf : g1.frag? f.id = some f1) :
    UnitEnds (endsOf u) s s1 (finish (ctxOf s g f n) u s1 pc) g f pc := by
  have hgid : g1.id = g.id := findBy_key hg
  have he : finish (ctxOf s g f n) u s1 pc =
      countIssue (s1.setGroup (endGroup (ctxOf s g f n) u s1 g1 f1 pc)) (endGroup (ctxOf s g f n) u s1 g1 f1 pc) := by
    simp [finish, ctxOf, hg, hf]
  rw [he]
  have heq := endGroup_eq (ctxOf s g f n) u s1 g1 f1 pc
  have hfr := endGroup_frag (ctxOf s g f n) u s1 g1 f1 pc hf
  generalize hg3 : endGroup (ctxOf s g f n) u s1 g1 f1 pc = g3 at heq hfr ⊢
  obtain ⟨l, hl⟩ := countIssue_eq (s1.setGroup g3) g3
  rw [hl]
  have h3 : g3.id = g.id := by rw [heq]; exact hgid
  have look : ∀ k, (State.group? { s1.setGroup g3 with dev := { (s1.setGroup g3).dev with live := l } } k) = (s1.setGroup g3).group? k := fun _ => rfl
  have hfid := (hfr f.id).trans (if_pos rfl)
  refine ⟨rfl, fun k hk => ?_, g1, g3, f1, _, hg, ?_, hf, hfid, heq, fun k hk => ?_, ?_, ?_⟩
  · rw [look, State.group?_setGroup, h3, if_neg hk]
  · rw [look, State.group?_setGroup, h3, if_pos rfl, hg]; rfl
  · rw [hfr k]; exact if_neg hk
  · unfold entered
    split <;> · unfold endedFrag keptFrag endFragment endsOf; cases (u.region && !f1.unperformed) <;> cases g1.logical <;> rfl
  · have key : ∀ f2 : Frag, entered f.region.count.toNat (retiredOf g3.logical) (endedFrag (ctxOf s g f n) u s1 g1 f1 pc) = f2 →
        RegionEnds (endsOf u) f f1 f2 g1 g3 pc := by
      intro f2 h2
      have hreg : (endedFrag (ctxOf s g f n) u s1 g1 f1 pc).region = if (endsOf u).closes f1 then nextRegion g1 f1 pc else f1.region := by
        unfold endedFrag keptFrag Ends.closes endsOf; cases (u.region && !f1.unperformed) <;> cases g1.logical <;> rfl
      unfold entered at h2
      unfold RegionEnds
      by_cases hc : (endedFrag (ctxOf s g f n) u s1 g1 f1 pc).region.count.toNat = f.region.count.toNat
      · rw [if_pos hc] at h2
        subst h2
        refine ⟨?_, fun hne => absurd hc hne, fun hr _ => ?_⟩
        · rw [hreg]; cases (endsOf u).closes f1 <;> rfl
        · rw [hreg, hr]; rfl
      · rw [if_neg hc] at h2
        subst h2
        refine ⟨?_, fun _ => rfl, fun _ he => absurd he hc⟩
        · dsimp only
          rw [hreg]; cases (endsOf u).closes f1 <;> rfl
    exact key _ rfl

/-- An instruction whose unit passes its checks and whose body takes effect happens. -/
theorem deed_done {e : Deed} {i : Instr} {s : State} {g g1 : Group} {f f1 : Frag} {spec : Ctx → UnitSpec} {body : Ctx → UnitRes}
    (hx : exec i s = runUnit s spec body) (h : Issues s g f)
    (hn : (spec { s := s, g := g, f := f, next := f.pc }).words = e.words)
    (hk : endsOf (spec { s := s, g := g, f := f, next := f.pc }) = e.ends)
    (hgo : preCheck (ctxOf s g f e.words) (spec { s := s, g := g, f := f, next := f.pc }) = .go)
    (hb : (body (ctxOf s g f e.words) = .done e.after ∧ e.pc = none) ∨ ∃ x, body (ctxOf s g f e.words) = .jump e.after x ∧ e.pc = some x)
    (hg : e.after.group? g.id = some g1) (hf : g1.frag? f.id = some f1) : e.Happens i s g f := by
  refine ⟨finish (ctxOf s g f e.words) (spec { s := s, g := g, f := f, next := f.pc }) e.after
    (e.pc.getD (f.pc + BitVec.ofNat 64 (4 * e.words))), ?_, hk ▸ finish_ends _ _ _ hg hf⟩
  rw [hx, runUnit_issues h, hn]
  rcases hb with ⟨hb, hp⟩ | ⟨x, hb, hp⟩ <;> simp only [issueUnit, hgo, endUnit, hb, hp] <;> rfl

/-- `Clear` for fewer registers. -/
theorem Clear.mono {g : Group} {f : Frag} {vs ss vs' ss' : List Nat} (h : Clear g f vs ss) (hv : ∀ n ∈ vs', n ∈ vs) (hs : ∀ n ∈ ss', n ∈ ss) :
    Clear g f vs' ss' := by
  have sub : ∀ r, named vs' ss' r = true → named vs ss r = true := by
    intro r hr
    cases r with
    | v n => simp only [named, List.contains_iff_mem] at hr ⊢; exact hv n hr
    | s n => simp only [named, List.contains_iff_mem] at hr ⊢; exact hs n hr
  exact ⟨fun n hn => h.inside n (hv n hn), h.room, fun o ho r hr hn => h.own o ho r hr (sub r hn),
    fun x hx hid o ho r hr hn => h.others x hx hid o ho r hr (sub r hn)⟩

/-- `ClearPath` for fewer registers. -/
theorem ClearPath.mono {g : Group} {f : Frag} {vs ss vs' ss' : List Nat} (h : ClearPath g f vs ss) (hv : ∀ n ∈ vs', n ∈ vs) (hs : ∀ n ∈ ss', n ∈ ss) :
    ClearPath g f vs' ss' := by
  have sub : ∀ r, named vs' ss' r = true → named vs ss r = true := by
    intro r hr
    cases r with
    | v n => simp only [named, List.contains_iff_mem] at hr ⊢; exact hv n hr
    | s n => simp only [named, List.contains_iff_mem] at hr ⊢; exact hs n hr
  exact ⟨fun n hn => h.inside n (hv n hn), h.landed, fun x hx hid o ho r hr hn => h.others x hx hid o ho r hr (sub r hn)⟩

/-- What a unit needs to be ready, by its specification, is what `Deed.Ready` says. -/
theorem deed_ready {e : Deed} {s : State} {g : Group} {f : Frag} {u : UnitSpec} (hr : e.Ready s g f) (hk : endsOf u = e.ends)
    (hv : ∀ n ∈ u.vs, n ∈ e.vs) (hs : ∀ n ∈ u.ss, n ∈ e.ss) (hp : u.priv = false) (hx : u.regx = false) (hsl : u.slot = none)
    (hu : u.unif = false) (hm : u.noMethod = true → e.ordinary = true) (hh : u.noHandler = true → e.free = true)
    (hrel : u.rel = 0 ∨ (u.rel = e.rel ∧ u.far = e.far)) : preCheck (ctxOf s g f e.words) u = .go := by
  obtain ⟨hc, hrl, ho, hf⟩ := hr
  have hrel' : u.rel = 0 ∨ Released s g u.rel u.far := by
    rcases hrel with h | ⟨h, hfar⟩
    · exact Or.inl h
    · rcases hrl with h' | h'
      · exact Or.inl (h.trans h')
      · exact Or.inr (h ▸ hfar ▸ h')
  have hpath : u.path = e.ends.path := by rw [← hk]; rfl
  cases hpe : e.ends.path with
  | false =>
    rw [hpe] at hc
    exact preCheck_go (c := ctxOf s g f e.words) (u := u) (hc.mono hv hs) (hpath.trans hpe) hp hx hsl hu (fun h => ho (hm h)) (fun h => hf (hh h)) hrel'
  | true =>
    rw [hpe] at hc
    exact preCheck_go_path (c := ctxOf s g f e.words) (u := u) (hc.mono hv hs) (hpath.trans hpe) hp hx hsl hu (fun h => ho (hm h)) (fun h => hf (hh h)) hrel'

/-- The state after a group has been put is that group under its id. -/
theorem group?_put {s : State} {g g1 : Group} (hg : s.group? g.id = some g) (hid : g1.id = g.id) :
    (s.setGroup g1).group? g.id = some g1 := by
  rw [State.group?_setGroup, if_pos hid.symm, hg]; rfl

/-- An instruction whose effect is a new state of its group happens: the group keeps its id and its fragments. -/
theorem deed_doneG {e : Deed} {i : Instr} {s : State} {g g1 : Group} {f : Frag} {spec : Ctx → UnitSpec} {body : Ctx → UnitRes}
    (hx : exec i s = runUnit s spec body) (h : Issues s g f) (hr : e.Ready s g f)
    (hu : ∃ vs ss, spec { s := s, g := g, f := f, next := f.pc } = { words := e.words, vs := vs, ss := ss } ∧ (∀ n ∈ vs, n ∈ e.vs) ∧ (∀ n ∈ ss, n ∈ e.ss))
    (hk : e.ends = {}) (hpc : e.pc = none)
    (hb : body (ctxOf s g f e.words) = .done (s.setGroup g1)) (ha : s.setGroup g1 = e.after) (hid : g1.id = g.id) (hfr : g1.frags = g.frags) :
    e.Happens i s g f := by
  obtain ⟨vs, ss, hu, hv, hs⟩ := hu
  have hfrag : g1.frag? f.id = some f := by have := h.frag; unfold Group.frag? at this ⊢; rw [hfr]; exact this
  refine deed_done hx h ?_ ?_ ?_ (Or.inl ⟨hb.trans (congrArg _ ha), hpc⟩) (ha ▸ group?_put h.group hid) hfrag
  · rw [hu]
  · rw [hu, hk]; rfl
  · rw [hu]
    exact deed_ready hr (by rw [hk]; rfl) hv hs rfl rfl rfl rfl (by intro h; cases h) (by intro h; cases h) (Or.inl rfl)

end Sys2Proof.Machine
end

