-- ==== Sys2Proof/Machine/Registers.lean ====
section
/-!
DEFINITION. What the registers of the device function and of a partition control block read (20 R443 to R446, R454, R456).  No event reads them:
the host is outside the machine.
-/

namespace Sys2Proof.Machine

/-- A field of a launch queue. -/
def readLaunchField (q : LaunchQueue) (f : Nat) : Dword :=
  match f with
  | 0 => q.base
  | 8 => BitVec.ofNat 64 (q.k + if q.sys then 32 else 0)
  | 16 => q.submit
  | 24 => q.result
  | _ => 0

/-- A field of a work queue. -/
def readWorkField (w : WorkQueue) (f : Nat) : Dword := match f with | 0 => w.base | 8 => BitVec.ofNat 64 w.k | _ => 0

/-- A dword of a hash window descriptor; one that is not set up reads version 0 (18 R422). -/
def readHashField (h : HashWindow) (f : Nat) : Dword :=
  match f with
  | 0 => if h.pages = 0 then 0 else BitVec.ofNat 64 (1 + pow2 16 * h.members + pow2 24 * h.self + pow2 32 * h.pages)
  | 8 => BitVec.ofNat 64 h.base
  | 16 => BitVec.ofNat 64 h.backing
  | 24 => BitVec.ofNat 64 h.table
  | _ => 0

/-- A field of an export range. -/
def readExportField (e : ExportRange) (f : Nat) : Dword :=
  match f with
  | 0 => BitVec.ofNat 64 e.base
  | 8 => BitVec.ofNat 64 e.length
  | 16 => BitVec.ofNat 64 (e.lo + pow2 16 * e.hi)
  | _ => 0

/-- What the field of a partition control block at an offset reads (20 R444, R445). -/
def blockRead (s : State) (p : Part) (off : Nat) : Dword :=
  match off with
  | 0x0000 => p.root
  | 0x0008 => p.yieldLimit.setWidth 64
  | 0x000C => p.window.setWidth 64
  | 0x0010 => p.drain.setWidth 64
  | 0x0014 => p.swap.setWidth 64
  | 0x0018 => p.reset.setWidth 64
  | 0x001C => p.collective.setWidth 64
  | 0x0020 => (controlWord p).setWidth 64
  | 0x0024 => p.status.setWidth 64
  | 0x0028 => p.image
  | 0x0030 => p.saveBase
  | 0x0038 => p.saveBytes.setWidth 64
  | 0x003C => p.saveSlots.setWidth 64
  | 0x0040 => p.faultBase
  | 0x0048 => BitVec.ofNat 64 p.faultK
  | 0x004C => p.answer
  | 0x0058 => p.errBase
  | 0x0060 => BitVec.ofNat 64 p.errK
  | 0x0064 => p.faultProd.setWidth 64
  | 0x0068 => p.faultCons.setWidth 64
  | 0x006C => p.errProd.setWidth 64
  | 0x0070 => p.errCons.setWidth 64
  | 0x0074 => p.vectors.setWidth 64
  | 0x0078 => p.errLost.setWidth 64
  | _ =>
    if 0x0100 ≤ off ∧ off < 0x0300 then readLaunchField (p.launch.getD ((off - 0x0100) / 32) {}) ((off - 0x0100) % 32)
    else if 0x0300 ≤ off ∧ off < 0x0700 then readWorkField (p.work.getD ((off - 0x0300) / 16) {}) ((off - 0x0300) % 16)
    else if 0x0700 ≤ off ∧ off < 0x0900 then readHashField (windowOf p ((off - 0x0700) / 32)) ((off - 0x0700) % 32)
    else if 0x0900 ≤ off ∧ off < 0x0B00 then
      readExportField ((p.exports.find? fun e => e.num == (off - 0x0900) / 32).getD { num := 0, base := 0, length := 0, lo := 0, hi := 0 }) ((off - 0x0900) % 32)
    else if 0x0B00 ≤ off ∧ off < 0x0D00 ∧ off % 8 = 0 then
      ((s.dev.ports.find? fun q => q.num == (off - 0x0B00) / 8).map portStatus).getD 0
    else if 0x8000 ≤ off ∧ off < 0x9000 then snapRead s p.id off
    else 0

/-- What the register of the device function at an offset reads: the stage, the firmware's version, the snapshot window, and the quote eight bytes
at a time (20 R443, R454, R456). -/
def deviceRead (s : State) (off : Nat) : Dword :=
  match off with
  | 0x0000 => BitVec.ofNat 64 (s.dev.stage + 256 * s.dev.failCause.toNat)
  | 0x0004 => s.dev.version.setWidth 64
  | _ =>
    if 0x8000 ≤ off ∧ off < 0x9000 then snapRead s deviceFn off
    else if 0x9000 ≤ off then BitVec.ofNat 64 (natOfBytes ((List.range 8).map fun i => quoteByte s.dev.quote (off - 0x9000 + i)))
    else 0

end Sys2Proof.Machine
end

