-- ==== Sys2Proof/Tests/Slice0.lean ====
section
/-!
SUPPORT. Tests of the model: words that the manual writes out, ill-formed terms, single steps, and witnesses of the statements' hypotheses.
Expected results are the manual's, or worked out by hand from its rules; each comment names the source.
-/

set_option Elab.async false

namespace Sys2Proof.Machine

/-! ### Words written out in the manual (the worked encodings of each chapter) -/

/-- Whether words decode to an instruction. -/
def reads (ws : List Word) (i : Instr) : Bool := match decodeWords ws with | .ok j => j == i | .error _ => false

/-- Whether words decode to nothing. -/
def refuses (ws : List Word) : Bool := match decodeWords ws with | .ok _ => false | .error _ => true

/-- 03. -/
theorem test_word_sli_immx : reads [0x1E000004, 0x301A3456] (.sli 6 (.long 0x00123456)) = true := by decide
/-- 05. -/
theorem test_word_deq : reads [0xC0201001] (.deq none 2 2 1) = true := by decide
/-- 05. -/
theorem test_word_launchi : reads [0xC6103091] (.launchi none 2 3 9) = true := by decide
/-- 05. -/
theorem test_word_enq_str : reads [0x1C000080, 0xC2301000] (.enq (some { str := 2 }) 12 2) = true := by decide
/-- 05. -/
theorem test_word_cwait : reads [0xC8005000] (.cwait none 10) = true := by decide
/-- 06. -/
theorem test_word_jset : reads [0x0A000007] (.jset 7) = true := by decide
/-- 06. -/
theorem test_word_ret : reads [0x0801F800] (.ret 63) = true := by decide
/-- 06. -/
theorem test_word_exit : reads [0x0E000000] (.exit) = true := by decide
/-- 06. -/
theorem test_word_ychk : reads [0x10000000] (.ychk) = true := by decide
/-- 06. -/
theorem test_word_dbra : reads [0x0C1FFFFB] (.dbra 7 (-5)) = true := by decide
/-- 06. -/
theorem test_word_rgn_sp : reads [0x12010003] (.rgnSp 3) = true := by decide
/-- 06. -/
theorem test_word_wbase : reads [0x1A000002] (.wbase 2) = true := by decide
/-- 06. -/
theorem test_word_sadd : reads [0x20102860] (.sadd 4 5 6) = true := by decide
/-- 06. -/
theorem test_word_ssetp : reads [0x34082052] (.ssetp 2 4 5 2) = true := by decide
/-- 06. -/
theorem test_word_srsys : reads [0x36280002] (.srsys 10 2) = true := by decide
/-- 06. -/
theorem test_word_pfroms : reads [0x80041000] (.pfroms none 1 2) = true := by decide
/-- 06. -/
theorem test_word_ptos : reads [0x80180801] (.ptos 6 1) = true := by decide
/-- 06. -/
theorem test_word_pand : reads [0x7E0C2050] (.pand none 3 4 5) = true := by decide
/-- 07. -/
theorem test_word_vadd : reads [0x40100820] (.vadd none 4 1 2) = true := by decide
/-- 07. -/
theorem test_word_vmul_modw : reads [0x1C084400, 0x40100822] (.vmul (some { sat := true, psc := -15 }) 4 1 2) = true := by decide
/-- 07. -/
theorem test_word_vmulhs : reads [0x401C4094] (.vmulhs none 7 8 9) = true := by decide
/-- 07. -/
theorem test_word_vaddi_immx : reads [0x1E10D090, 0x46140280] (.vaddi none 5 0 (.long 0x86848280)) = true := by decide
/-- 07. -/
theorem test_word_vshli : reads [0x4A0C2005] (.vshli none 3 4 5) = true := by decide
/-- 07. -/
theorem test_word_vpermb_n4 : reads [0x56281941] (.vpermbN4 none 10 3 20) = true := by decide
/-- 07. -/
theorem test_word_vsel : reads [0x5A102863] (.vsel none 4 5 6 3) = true := by decide
/-- 07. -/
theorem test_word_vmovs : reads [0x5C501000] (.vmovs none 20 2) = true := by decide
/-- 07. -/
theorem test_word_vmovxr : reads [0x5E242000] (.vmovxr none 9 4) = true := by decide
/-- 07. -/
theorem test_word_vfma_f64 : reads [0x62201041] (.vfma none 8 2 4 1) = true := by decide
/-- 07. -/
theorem test_word_vfsetp : reads [0x64080822] (.vfsetp none 2 1 2 0 2) = true := by decide
/-- 07. -/
theorem test_word_vfsqrt : reads [0x66143023] (.vfsqrt none 5 6 3) = true := by decide
/-- 07. -/
theorem test_word_vhfma_bf16 : reads [0x6C08184B] (.vhfma none 2 3 4 1) = true := by decide
/-- 07. -/
theorem test_word_vconf : reads [0x76183805] (.vconf none 6 7 5) = true := by decide
/-- 07. -/
theorem test_word_vshflx : reads [0x780C2101] (.vshflx none 3 4 16) = true := by decide
/-- 07. -/
theorem test_word_vred : reads [0x7A306840] (.vred none 12 13 0 4 0) = true := by decide
/-- 08. -/
theorem test_word_ld128 : reads [0x8E320060] (.ld128 none 12 1 0 6 0) = true := by decide
/-- 08. -/
theorem test_word_st8_guard : reads [0x1C600000, 0x90041040] (.st8 (some { guard := 3 }) 1 0 2 4 0 0) = true := by decide
/-- 08. -/
theorem test_word_st32_release : reads [0x1C000028, 0x940C2091] (.st32 (some { scope := 5 }) 3 0 4 9 0 1) = true := by decide
/-- 08. -/
theorem test_word_lds64 : reads [0x9C283021] (.lds64 none 10 6 2 1) = true := by decide
/-- 09. -/
theorem test_word_vdot : reads [0x6E3C4841] (.vdot none 15 9 4 1) = true := by decide
/-- 09. -/
theorem test_word_vcvt : reads [0x683C7920] (.vcvt none 15 15 0x12) = true := by decide
/-- 10. -/
theorem test_word_hbind : reads [0xDE082060] (.hbind none 2 2 6) = true := by decide
/-- 10. -/
theorem test_word_feed : reads [0xE0286020] (.feed none 10 3 2 0 0) = true := by decide
/-- 10. -/
theorem test_word_feed_tr_cm : reads [0xE0286023] (.feed none 10 3 2 1 1) = true := by decide
/-- 10. -/
theorem test_word_cpy : reads [0xE2281090] (.cpy none 10 1 9) = true := by decide
/-- 10. -/
theorem test_word_qfence : reads [0xE4005800] (.qfence 11) = true := by decide
/-- 10. -/
theorem test_word_qwait : reads [0xE60038A0] (.qwait none 7 10) = true := by decide
/-- 11. -/
theorem test_word_objcall_guard : reads [0x1C600000, 0xAE307000] (.objcall (some { guard := 3 }) 12 14 0 0) = true := by decide
/-- 11. -/
theorem test_word_objbind : reads [0xB2401120] (.objbind 16 1 9) = true := by decide
/-- 11. -/
theorem test_word_cret : reads [0xB4145000] (.cret 5 10) = true := by decide
/-- 13. -/
theorem test_word_fence_full : reads [0x1C000078, 0xBC000002] (.fenceFull (some { str := 1, scope := 7 })) = true := by decide
/-- 13. -/
theorem test_word_xfence_rel : reads [0x1C000028, 0xBE010003] (.xfenceRel (some { scope := 5 }) 3) = true := by decide
/-- 14. -/
theorem test_word_mma_nacc : reads [0x3E400000, 0xCC500020] (.mma (some { nacc := true }) 10 0 2 0) = true := by decide
/-- 14. -/
theorem test_word_mma_gang : reads [0x3E180000, 0xCC500029] (.mmaGang (some { rel := 3 }) 10 0 2 1) = true := by decide
/-- 14. -/
theorem test_word_mtr_rq : reads [0x3E004000, 0xD2502000] (.mtr (some { rq := true }) 10 4 0 0) = true := by decide
/-- 14. -/
theorem test_word_mnorm : reads [0xD4500003] (.mnorm none 10) = true := by decide
/-- 14. -/
theorem test_word_mstat_sum : reads [0xDC283001] (.mstatSum none 10 6) = true := by decide
/-- 15. -/
theorem test_word_mlbl : reads [0xDA044000] (.mlbl none 1 4) = true := by decide
/-- 16. -/
theorem test_word_trapinfo : reads [0xEE400021] (.trapinfo 4 2) = true := by decide
/-- 16. -/
theorem test_word_trap : reads [0x14000015] (.trap 0x15) = true := by decide
/-- 16. -/
theorem test_word_tret_addr : reads [0x1600A002] (.tretAddr 10) = true := by decide
/-- 18. -/
theorem test_word_paddc : reads [0xEAA040C0] (.paddc none 40 2 3 0) = true := by decide
/-- 18. -/
theorem test_word_baraw : reads [0xBA649002] (.baraw none 25 18) = true := by decide
/-- 18. -/
theorem test_word_pld_pb8 : reads [0xA6204100] (.pld none 8 4 1 0 0) = true := by decide

/-! ### Words that no entry defines (03 R61, R70 to R84) -/

/-- R84: opcode 0x78. -/
theorem test_refused_opcode_unassigned : refuses [0xF0000000] = true := by decide
/-- R84. -/
theorem test_refused_all_ones : refuses [0xFFFFFFFF] = true := by decide
/-- 09 R244: f 9. -/
theorem test_refused_vdot_f9 : refuses [0x6E3C4849] = true := by decide
/-- R172: NOP with a field. -/
theorem test_refused_nop_field : refuses [0x00000001] = true := by decide
/-- R75: a prefix without its word. -/
theorem test_refused_prefix_alone : refuses [0x1C084400] = true := by decide
/-- R75: two prefixes of one kind. -/
theorem test_refused_two_modw : refuses [0x1C000000, 0x1C000000, 0x40100820] = true := by decide
/-- R73: format B takes no prefix. -/
theorem test_refused_branch_prefix : refuses [0x1C000000, 0x0A000007] = true := by decide
/-- R80: VSHLI accepts no IMMX. -/
theorem test_refused_immx_on_vshli : refuses [0x1E000000, 0x4A0C2005] = true := by decide
/-- R78: MXW on a vector instruction. -/
theorem test_refused_mxw_on_vadd : refuses [0x3E000000, 0x40100820] = true := by decide
/-- R78: bits [9:0] of MXW. -/
theorem test_refused_mxw_reserved : refuses [0x3E400001, 0xCC500020] = true := by decide
/-- R79: payload bits above the value of format L. -/
theorem test_refused_immx_high_bits : refuses [0x1E00C000, 0x301A3456] = true := by decide
/-- R61: a scalar field with bit 6 set. -/
theorem test_refused_scalar_number : refuses [0x21002860] = true := by decide
/-- R76: VMOV honours the guard only. -/
theorem test_refused_sat_on_vmov : refuses [0x1C080000, 0x4E0C2003] = true := by decide
/-- R385: f 3. -/
theorem test_refused_tret_f3 : refuses [0x16000003] = true := by decide
/-- R174: imm11[10:5] nonzero. -/
theorem test_refused_sshli_32 : refuses [0x2A102020] = true := by decide

/-! ### Ill-formed terms, one for each check of WellFormed -/

/-- R176: relations 0 to 9. -/
theorem test_illformed_ssetp_relation : Instr.wellFormed (.ssetp 2 4 5 10) = false := by decide
/-- R179: 0x009 is not assigned. -/
theorem test_illformed_srsys_number : Instr.wellFormed (.srsys 10 9) = false := by decide
/-- R179: a 64-bit register needs an even scalar. -/
theorem test_illformed_srsys_odd_pair : Instr.wellFormed (.srsys 11 0x016) = false := by decide
/-- R179: sys.team is read only. -/
theorem test_illformed_swsys_read_only : Instr.wellFormed (.swsys 4 2) = false := by decide
/-- R61: pairs 0 to 126. -/
theorem test_illformed_vpermb_pair : Instr.wellFormed (.vpermb none 0 127 1) = false := by decide
/-- R61. -/
theorem test_illformed_vfadd_f64_pair : Instr.wellFormed (.vfadd none 127 0 0 1) = false := by decide
/-- R61. -/
theorem test_illformed_vfsetp_pair : Instr.wellFormed (.vfsetp none 1 127 0 1 0) = false := by decide
/-- R61. -/
theorem test_illformed_vfclass_pair : Instr.wellFormed (.vfclass none 0 127 1) = false := by decide
/-- R238: code 0x0E. -/
theorem test_illformed_vcvt_code : Instr.wellFormed (.vcvt none 0 0 0x0E) = false := by decide
/-- R238: two destination registers. -/
theorem test_illformed_vcvt_pair : Instr.wellFormed (.vcvt none 127 0 0x00) = false := by decide
/-- R244. -/
theorem test_illformed_vdot_form : Instr.wellFormed (.vdot none 0 0 0 9) = false := by decide
/-- R245. -/
theorem test_illformed_vqnt_pair : Instr.wellFormed (.vqnt none 0 127 0 0) = false := by decide
/-- R248. -/
theorem test_illformed_rngc_pair : Instr.wellFormed (.rngc none 127 0 0 0) = false := by decide
/-- R204: AND of floats. -/
theorem test_illformed_vred_and_float : Instr.wellFormed (.vred none 0 0 3 4 0) = false := by decide
/-- R204: MINN of integers. -/
theorem test_illformed_vred_minn_int : Instr.wellFormed (.vred none 0 0 6 0 0) = false := by decide
/-- R204: types 0 to 5. -/
theorem test_illformed_vred_type : Instr.wellFormed (.vred none 0 0 0 6 0) = false := by decide
/-- R204: 64-bit types on pairs. -/
theorem test_illformed_vscan_pair : Instr.wellFormed (.vscan none 127 0 0 2 0) = false := by decide
/-- R61: an even scalar base. -/
theorem test_illformed_ld_base_odd : Instr.wellFormed (.ld32 none 0 0 3 0 0) = false := by decide
/-- R61: a[5:0] zero with a[6]. -/
theorem test_illformed_ld_pair_base : Instr.wellFormed (.ld32 none 0 1 2 0 0) = false := by decide
/-- 08: quads 0 to 124. -/
theorem test_illformed_ld128_quad : Instr.wellFormed (.ld128 none 125 0 0 0 0) = false := by decide
/-- R61. -/
theorem test_illformed_st64_pair : Instr.wellFormed (.st64 none 127 0 0 0 0 0) = false := by decide
/-- 08. -/
theorem test_illformed_lds128_quad : Instr.wellFormed (.lds128 none 125 0 0 0) = false := by decide
/-- 08: scalars 0 to 60. -/
theorem test_illformed_pld_base : Instr.wellFormed (.pld none 0 31 0 0 0) = false := by decide
/-- 08: scalars 0 to 60. -/
theorem test_illformed_pst_base : Instr.wellFormed (.pst none 0 31 0) = false := by decide
/-- R308. -/
theorem test_illformed_atom_pair : Instr.wellFormed (.atom none 127 0 0 0 0) = false := by decide
/-- R308: op 11. -/
theorem test_illformed_red_op : Instr.wellFormed (.red none 0 0 11 0) = false := by decide
/-- R308: AND of a float type. -/
theorem test_illformed_atom_float_and : Instr.wellFormed (.atom none 0 0 3 4 0) = false := by decide
/-- R285. -/
theorem test_illformed_objcall_pair : Instr.wellFormed (.objcall none 127 0 0 0) = false := by decide
/-- R320. -/
theorem test_illformed_waitv_relation : Instr.wellFormed (.waitv none 0 0 0 10) = false := by decide
/-- R320: a 64-bit comparand needs an even scalar. -/
theorem test_illformed_waitv_odd : Instr.wellFormed (.waitv none 1 0 1 0) = false := by decide
/-- R138. -/
theorem test_illformed_enq_quad : Instr.wellFormed (.enq none 125 0) = false := by decide
/-- R358: a bias handle without bias. -/
theorem test_illformed_mtr_bias : Instr.wellFormed (.mtr none 10 4 1 0) = false := by decide
/-- R371: slot 0. -/
theorem test_illformed_mlbl_slot : Instr.wellFormed (.mlbl none 0 4) = false := by decide
/-- R383. -/
theorem test_illformed_trapinfo_index : Instr.wellFormed (.trapinfo 4 3) = false := by decide
/-- R450. -/
theorem test_illformed_rdver_index : Instr.wellFormed (.rdver 0 14) = false := by decide
/-- R76: scope on a store without release. -/
theorem test_illformed_scope_on_plain_store : Instr.wellFormed (.st32 (some { scope := 5 }) 3 0 4 9 0 0) = false := by decide
/-- R76. -/
theorem test_illformed_neg_on_vmax : Instr.wellFormed (.vmax (some { nega := true }) 4 1 2) = false := by decide
/-- R187. -/
theorem test_illformed_abs_on_vmad : Instr.wellFormed (.vmad (some { absa := true }) 4 1 2 0) = false := by decide
/-- R205: sat on a float ADD. -/
theorem test_illformed_sat_on_vred_float : Instr.wellFormed (.vred (some { sat := true }) 0 0 0 4 0) = false := by decide
/-- R78. -/
theorem test_illformed_rel_on_mtr : Instr.wellFormed (.mtr (some { rel := 1 }) 10 4 0 0) = false := by decide
/-- R78. -/
theorem test_illformed_bias_on_mma : Instr.wellFormed (.mma (some { bias := true }) 10 0 2 0) = false := by decide

/-! ### A small state: partition 0, whose first GiB is mapped onto itself, and one team of one group with one fragment on core 0 -/

def testFmt : List Word := [0x05, 0x02, 0x03, 0x04, 0x06, 0x08, 0x10, 0x11]

def testRecord : LaunchRecord :=
  { version := 1, kind := 0, priority := 1, depth := 0, gangPref := 0, gangFall := 0, groups := 1, teams := 1, pool := 0, entry := 0x10000, methods := 0
    vector := 0x20000, arg := 0, countAddr := 0, complete := 0, vDemand := 1024, cDemand := 16, tDemand := 16, evict := 0xFFFFFFFF, quantum := 0, fmt := testFmt }

def testGrid : Grid :=
  { id := 9, part := 0, number := 1, record := testRecord, launcher := { team := none, sys := false }, queue := 0, teams := 1, next := 1, status := 0
    retired := false, phase := none }

def testTeam : Team :=
  { id := 2, part := 0, grid := 9, num := 0, place := .core 0, setFirst := 0, setSize := 1, rank := 0, slice := [], sliceLen := 65536, arm := 1, rels := []
    launched := [], retired := [], chosen := none, saveTag := 0, writes := [] }

def testFrag : Frag := freshFrag 5 0xFFFFFFFF 0x10000 0

def testGroup : Group :=
  { id := 3, role := .ordinary, part := 0, team := 2, num := 0, quadrant := 0, slot := 0, age := 0, exited := false, v := [], s := [], p := [], acc := []
    handles := [], window := 0, granules := 128, tiles := 16, handleN := 16, gang := 0, joints := 0, rngkey := 0, smscale := 0x3F800000, trap := {}
    regions := 0, frags := [testFrag], splits := [], handler := none, trapWait := none, stage := {}, cmds := 0, nextBatch := 1, batches := [], narrow := []
    logical := none }

/-- The group with one changed. -/
def testState (g : Group) : State :=
  { loadPartition State.reset with groups := [g], teams := [testTeam], grids := [testGrid], cur := some (3, 5), nextId := 50 }

/-- Words at an address. -/
def withWords (s : State) (a : Nat) (ws : List Word) : State := placeBytes s (.mem a) (ws.flatMap bytesOfWord)

/-- What holds of the group, and of the state, after one instruction. -/
def groupAfter (i : Instr) (s : State) (f : Group → Bool) : Bool := match exec i s with | .next t => (t.group? 3).any f | _ => false
def after (i : Instr) (s : State) (f : State → Bool) : Bool := match exec i s with | .next t => f t | _ => false

/-! ### Single steps -/

/-- R173: modulo 2^32. -/
theorem test_sadd_wraps : groupAfter (.sadd 4 5 6) (testState ((testGroup.setS 5 0xFFFFFFFF).setS 6 2)) (fun g => g.getS 4 == 1) = true := by
  decide +kernel

/-- R173: a count of 32 or more fills with the sign. -/
theorem test_ssra_by_32 : groupAfter (.ssra 4 5 6) (testState ((testGroup.setS 5 0x80000000).setS 6 32)) (fun g => g.getS 4 == 0xFFFFFFFF) = true := by
  decide +kernel

/-- R173: bits [63:32] of (-1) × 2, signed and unsigned. -/
theorem test_smulhs : groupAfter (.smulhs 4 5 6) (testState ((testGroup.setS 5 0xFFFFFFFF).setS 6 2)) (fun g => g.getS 4 == 0xFFFFFFFF) = true := by
  decide +kernel
theorem test_smulhu : groupAfter (.smulhu 4 5 6) (testState ((testGroup.setS 5 0xFFFFFFFF).setS 6 2)) (fun g => g.getS 4 == 1) = true := by
  decide +kernel

/-- R175. -/
theorem test_sclz_zero : groupAfter (.sclz 4 5) (testState testGroup) (fun g => g.getS 4 == 32) = true := by decide +kernel

/-- R174: the short immediate is sign extended (R74). -/
theorem test_saddi_negative : groupAfter (.saddi 4 5 (.short (-1))) (testState testGroup) (fun g => g.getS 4 == 0xFFFFFFFF) = true := by
  decide +kernel

/-- R177: the lowest lane of the fragment decides. -/
theorem test_ssel : groupAfter (.ssel 4 5 6 1) (testState (((testGroup.setP 1 0xFFFFFFFF 1).setS 5 7).setS 6 8)) (fun g => g.getS 4 == 7) = true := by
  decide +kernel

/-- R180: p0 is true in every lane. -/
theorem test_ptos_p0 : groupAfter (.ptos 4 0) (testState testGroup) (fun g => g.getS 4 == 0xFFFFFFFF) = true := by decide +kernel

/-- R77, R185: 0x7FFFFFFF + 1 saturates. -/
theorem test_vadd_saturates :
    groupAfter (.vadd (some { sat := true }) 4 1 2) (testState ((testGroup.setV 1 3 0x7FFFFFFF).setV 2 3 1)) (fun g => g.getV 4 3 == 0x7FFFFFFF) = true := by
  decide +kernel

/-- R76, R77: only lanes where the guard is true are written. -/
theorem test_vmovs_guard :
    groupAfter (.vmovs (some { guard := 1 }) 4 5) (testState ((testGroup.setP 1 0xFFFFFFFF 0x10).setS 5 9)) (fun g => g.getV 4 4 == 9 && g.getV 4 3 == 0) = true := by
  decide +kernel

/-- R196: 1.0 + 1.0 = 2.0. -/
theorem test_vfadd :
    groupAfter (.vfadd none 4 1 1 0) (testState (testGroup.setV 1 0 0x3F800000)) (fun g => g.getV 4 0 == 0x40000000) = true := by
  decide +kernel

/-- R202: lane i of VSHFLX takes lane i XOR k. -/
theorem test_vshflx : groupAfter (.vshflx none 4 1 16) (testState (testGroup.setV 1 2 5)) (fun g => g.getV 4 18 == 5) = true := by decide +kernel

/-- R163: the count reaches zero, and DBRA falls through. -/
theorem test_dbra_ends :
    groupAfter (.dbra 7 (-5)) (testState (testGroup.setS 7 1)) (fun g => (g.frag? 5).any fun f => f.pc == 0x10004) = true := by decide +kernel

/-- R163: it branches by words from its own address. -/
theorem test_dbra_loops :
    groupAfter (.dbra 7 (-5)) (testState (testGroup.setS 7 2)) (fun g => (g.frag? 5).any fun f => f.pc == 0xFFEC) = true := by decide +kernel

/-- The trace after R164, step 2: lanes 0 to 15 at the target, the others at the next unit, in a new split that ends at the join. -/
theorem test_bra_diverges :
    groupAfter (.bra 1 0 0 4) (testState { (testGroup.setP 1 0xFFFFFFFF 0xFFFF) with frags := [{ testFrag with join := some 0x10014 }] })
      (fun g => g.frags.map (fun f => (f.mask, f.pc)) == [(0xFFFF, 0x10010), (0xFFFF0000, 0x10004)] &&
        g.splits.map (fun x => (x.join, x.parent)) == [(0x10014, 0)]) = true := by decide +kernel

/-- R169. -/
theorem test_exit : groupAfter .exit (testState testGroup) (fun g => g.exited && g.frags == []) = true := by decide +kernel

/-- R384: cause SWTRAP, the code as address, the handler at the vector; a post-effect trap resumes at the next unit. -/
theorem test_trap_record :
    groupAfter (.trap 0x15) (testState testGroup) (fun g => g.trap.cause == 0x0E && g.trap.addr == 0x15 && g.trap.pc == 0x10000 && g.trap.resume == 0x10004 &&
      g.handler.isSome && g.running.map Frag.pc == [0x20000]) = true := by decide +kernel

/-- R226: the bytes at the lane's address, lowest first, when the result lands. -/
theorem test_ld32 :
    groupAfter (.ld32 none 8 0 2 4 0) (withWords (testState ({ (testGroup.setS 2 0x8000) with frags := [{ testFrag with mask := 1 }] })) 0x8000 [0x11223344])
      (fun g => (g.frag? 5).any fun f => f.outs.map Out.writes == [[{ reg := .v 8, lane := 0, val := 0x11223344 }]]) = true := by decide +kernel

/-- R227: the lane's word at its address, and the next byte unchanged. -/
theorem test_st16 :
    after (.st16 none 8 0 2 4 0 0) (testState ({ ((testGroup.setS 2 0x8000).setV 8 0 0xAABBCCDD) with frags := [{ testFrag with mask := 1 }] }))
      (fun t => readKeys t 0x8000 3 == [0xDD, 0xCC, 0]) = true := by decide +kernel

/-- R220: an address that is not aligned traps MISALIGN with that address, and nothing is stored. -/
theorem test_st32_misaligned :
    after (.st32 none 8 0 2 4 0 0) (testState ({ ((testGroup.setS 2 0x8002).setV 8 0 1) with frags := [{ testFrag with mask := 1 }] }))
      (fun t => readKeys t 0x8000 4 == [0, 0, 0, 0] && (t.group? 3).any fun g => g.trap.cause == 0x06 && g.trap.addr == 0x8002) = true := by decide +kernel

/-- R81: a touch inside an open window traps LAHZ, and writes nothing. -/
theorem test_lahz :
    groupAfter (.vmov none 9 8) (testState { testGroup with frags := [{ testFrag with outs := [
        { id := 1, kind := .load, regs := [.v 8], window := 1, interlock := false, landed := true, str := 0, writes := [], awaits := [], replies := [], addrs := []
          trap := none, flits := [], pc := 0, quantum := 0 }] }] })
      (fun g => g.trap.cause == 0x04 && g.handler.isSome) = true := by decide +kernel

/-- R320, R321: a value that already satisfies the relation ends the wait at once. -/
theorem test_waitv_passes :
    groupAfter (.waitv none 4 1 0 0) (testState (testGroup.setS 2 0x8000)) (fun g => (g.frag? 5).any fun f => f.wait == none && f.pc == 0x10004) = true := by
  decide +kernel

/-! ### Witnesses: states and operands that meet the hypotheses of the statements -/

/-- A fragment that issues, alone in its group, with nothing outstanding, is held back by nothing when its registers are allocated. -/
theorem testReady {s : State} {g : Group} {f : Frag} {e : Deed} (ho : f.outs = []) (hf : g.frags = [f]) (hr : g.role = .ordinary) (hh : g.handler = none)
    (hrel : (openAtomics s g.id = [] ∧ g.strays = [] ∧ g.wire = [])) (h : (e.vs.all fun n => decide (n < 8 * g.granules)) = true) : e.Ready s g f := by
  have hv : ∀ n ∈ e.vs, n < 8 * g.granules := by simpa using h
  refine ⟨?_, .inr (.inr ⟨by simp [hrel.1], by simp [Group.openCommits, hf, ho, hrel.2.1], by simp [hrel.2.2, hf, ho]⟩), fun _ => hr, fun _ => hh⟩
  split
  · exact ⟨hv, by simp [ho], by simp [hf]⟩
  · exact ⟨hv, by simp [ho], by simp [ho], by simp [hf]⟩

/-- The same of a table of deeds, and of a table of rows. -/
theorem testMeets {s : State} {g : Group} {f : Frag} {t : Option Deed} (hi : Issues s g f) (ho : f.outs = []) (hf : g.frags = [f])
    (hr : g.role = .ordinary) (hh : g.handler = none) (hrel : (openAtomics s g.id = [] ∧ g.strays = [] ∧ g.wire = []))
    (h : (t.any fun e => e.vs.all fun n => decide (n < 8 * g.granules)) = true) : ∃ e, t = some e ∧ Issues s g f ∧ e.Ready s g f := by
  cases t with
  | none => simp at h
  | some e => exact ⟨e, rfl, hi, testReady ho hf hr hh hrel h⟩

theorem testRow {s : State} {g : Group} {f : Frag} {t : Option Row} (hi : Issues s g f) (ho : f.outs = []) (hf : g.frags = [f])
    (h : (t.any fun r => r.vs.all fun n => decide (n < 8 * g.granules)) = true) : ∃ r, t = some r ∧ Issues s g f ∧ Clear g f r.vs r.ss := by
  cases t with
  | none => simp at h
  | some r => exact ⟨r, rfl, hi, by simpa using h, by simp [ho], by simp [ho], by simp [hf]⟩

theorem testIssues (g : Group) (f : Frag) (h3 : g.id = 3) (h5 : f.id = 5) (hf : g.frags = [f]) : Issues (testState g) g f := by
  refine ⟨by simp [testState, h3, h5], ?_, ?_⟩
  · simp [testState, State.group?, findBy, h3]
  · simp [Group.frag?, findBy, hf]

/-- Handles: a stream of FIFO 0 and of FIFO 3, of f8e4, and an f32 tile at the slice's start. -/
def testHandles : List Handle :=
  [{ num := 0, record := 0x9000, dest := 0, format := 0x05, swizzle := 0, labelRows := false, hasLabels := false, failed := false, failure := 0, failAddr := 0
     delivered := 0, position := 0, lastFeed := 0 },
   { num := 1, record := 0x9000, dest := 3, format := 0x05, swizzle := 0, labelRows := false, hasLabels := false, failed := false, failure := 0, failAddr := 0
     delivered := 0, position := 0, lastFeed := 0 },
   { num := 2, record := 0x9000, dest := 0x80000000, format := 0x02, swizzle := 0, labelRows := false, hasLabels := false, failed := false, failure := 0
     failAddr := 0, delivered := 0, position := 0, lastFeed := 0 }]

/-- A group with handles, a batch, and registers that name memory (s2, s4, s6), a command word of 32 × 32 × 32 (s10), queue numbers and counts (s20 to s23). -/
def testGroup2 : Group :=
  { ((((((testGroup.setS 2 0x8000).setS 4 0x9000).setS 6 0xA000).setS 7 0).setS 10 0x3000).setS 20 1) with
    handles := testHandles, batches := [(1, 0)], nextBatch := 2 }

/-- A state with a well-formed f8e4 shape record at 0x9000, and work queues of 16 entries. -/
def testState2 (g : Group) : State :=
  (withWords (testState g) 0x9000 [0x1421, 0, 0x10000, 0, 0, 0, 0, 0, 0x001F001F]).modPart 0 fun p => { p with
    work := p.work.map fun w => { w with base := 0x40000, k := 4 } }

theorem testIssues2 : Issues (testState2 testGroup2) testGroup2 testFrag := ⟨rfl, by decide +kernel, rfl⟩

theorem test_meets_ScalarResults_1 : ∃ r, scalarRow testGroup2 testFrag (.sadd 63 0 63) = some r ∧ Issues (testState2 testGroup2) testGroup2 testFrag ∧
    Clear testGroup2 testFrag r.vs r.ss := testRow testIssues2 rfl rfl (by decide +kernel)

theorem test_meets_ScalarResults_2 : ∃ r, scalarRow testGroup2 testFrag (.smovv 4 127 63) = some r ∧ Issues (testState2 testGroup2) testGroup2 testFrag ∧
    Clear testGroup2 testFrag r.vs r.ss := testRow testIssues2 rfl rfl (by decide +kernel)

theorem test_meets_ScalarResults_3 : ∃ r, scalarRow testGroup2 testFrag (.ppopc 4 15) = some r ∧ Issues (testState2 testGroup2) testGroup2 testFrag ∧
    Clear testGroup2 testFrag r.vs r.ss := testRow testIssues2 rfl rfl (by decide +kernel)

theorem test_meets_ScalarResults_4 : ∃ r, (scalarRow testGroup2 testFrag (.ssetp 15 0 63 9) = some r ∨
      predRow testGroup2 testFrag (.ssetp 15 0 63 9) = some r) ∧ Issues (testState2 testGroup2) testGroup2 testFrag ∧
    Clear testGroup2 testFrag r.vs r.ss :=
  (testRow testIssues2 rfl rfl (by decide +kernel)).imp fun _ h => ⟨.inr h.1, h.2⟩

theorem test_meets_ScalarResults_5 : ∃ r, (scalarRow testGroup2 testFrag (.vsetp none 0 127 0 9) = some r ∨
      predRow testGroup2 testFrag (.vsetp none 0 127 0 9) = some r) ∧ Issues (testState2 testGroup2) testGroup2 testFrag ∧
    Clear testGroup2 testFrag r.vs r.ss :=
  (testRow testIssues2 rfl rfl (by decide +kernel)).imp fun _ h => ⟨.inr h.1, h.2⟩

theorem test_meets_ScalarResults_6 : ∃ r, (scalarRow testGroup2 testFrag (.pfirst none 15 15) = some r ∨
      predRow testGroup2 testFrag (.pfirst none 15 15) = some r) ∧ Issues (testState2 testGroup2) testGroup2 testFrag ∧
    Clear testGroup2 testFrag r.vs r.ss :=
  (testRow testIssues2 rfl rfl (by decide +kernel)).imp fun _ h => ⟨.inr h.1, h.2⟩

theorem test_meets_VectorResults_1 : ∃ r, vectorRow testGroup2 testFrag (.vadd (some { guard := 15, psc := 15 }) 127 0 127) = some r ∧ Issues (testState2 testGroup2) testGroup2 testFrag ∧
    Clear testGroup2 testFrag r.vs r.ss := testRow testIssues2 rfl rfl (by decide +kernel)

theorem test_meets_VectorResults_2 : ∃ r, vectorRow testGroup2 testFrag (.vmad none 127 0 1 1) = some r ∧ Issues (testState2 testGroup2) testGroup2 testFrag ∧
    Clear testGroup2 testFrag r.vs r.ss := testRow testIssues2 rfl rfl (by decide +kernel)

theorem test_meets_VectorResults_3 : ∃ r, vectorRow testGroup2 testFrag (.vsel none 0 127 1 0) = some r ∧ Issues (testState2 testGroup2) testGroup2 testFrag ∧
    Clear testGroup2 testFrag r.vs r.ss := testRow testIssues2 rfl rfl (by decide +kernel)

theorem test_meets_VectorResults_4 : ∃ r, vectorRow testGroup2 testFrag (.vconf none 0 127 15) = some r ∧ Issues (testState2 testGroup2) testGroup2 testFrag ∧
    Clear testGroup2 testFrag r.vs r.ss := testRow testIssues2 rfl rfl (by decide +kernel)

theorem test_meets_VectorResults_5 : ∃ r, (vectorRow testGroup2 testFrag (.vfma none 126 0 2 1) = some r ∨
      floatRow testGroup2 testFrag (.vfma none 126 0 2 1) = some r) ∧ Issues (testState2 testGroup2) testGroup2 testFrag ∧
    Clear testGroup2 testFrag r.vs r.ss :=
  (testRow testIssues2 rfl rfl (by decide +kernel)).imp fun _ h => ⟨.inr h.1, h.2⟩

theorem test_meets_VectorResults_6 : ∃ r, (vectorRow testGroup2 testFrag (.vhadd none 127 0 1 1) = some r ∨
      floatRow testGroup2 testFrag (.vhadd none 127 0 1 1) = some r) ∧ Issues (testState2 testGroup2) testGroup2 testFrag ∧
    Clear testGroup2 testFrag r.vs r.ss :=
  (testRow testIssues2 rfl rfl (by decide +kernel)).imp fun _ h => ⟨.inr h.1, h.2⟩

theorem test_meets_VectorResults_7 : ∃ r, (vectorRow testGroup2 testFrag (.vfclass none 0 126 1) = some r ∨
      floatRow testGroup2 testFrag (.vfclass none 0 126 1) = some r) ∧ Issues (testState2 testGroup2) testGroup2 testFrag ∧
    Clear testGroup2 testFrag r.vs r.ss :=
  (testRow testIssues2 rfl rfl (by decide +kernel)).imp fun _ h => ⟨.inr h.1, h.2⟩

theorem test_meets_NarrowResults_1 : ∃ r, narrowRow (testState2 testGroup2) testGroup2 testFrag (.vcvt none 0 126 0x01) = some r ∧ Issues (testState2 testGroup2) testGroup2 testFrag ∧
    Clear testGroup2 testFrag r.vs r.ss := testRow testIssues2 rfl rfl (by decide +kernel)

theorem test_meets_NarrowResults_2 : ∃ r, narrowRow (testState2 testGroup2) testGroup2 testFrag (.vdot none 127 0 1 8) = some r ∧ Issues (testState2 testGroup2) testGroup2 testFrag ∧
    Clear testGroup2 testFrag r.vs r.ss := testRow testIssues2 rfl rfl (by decide +kernel)

theorem test_meets_NarrowResults_3 : ∃ r, narrowRow (testState2 testGroup2) testGroup2 testFrag (.vunpk none 0 1 2 0) = some r ∧ Issues (testState2 testGroup2) testGroup2 testFrag ∧
    Clear testGroup2 testFrag r.vs r.ss := testRow testIssues2 rfl rfl (by decide +kernel)

theorem test_meets_SystemResults_1 : ∃ e, systemDeed (testState2 testGroup2) testGroup2 testFrag (.nop) = some e ∧ Issues (testState2 testGroup2) testGroup2 testFrag ∧
    e.Ready (testState2 testGroup2) testGroup2 testFrag := testMeets testIssues2 rfl rfl rfl rfl (by decide +kernel) (by decide +kernel)

theorem test_meets_SystemResults_2 : ∃ e, systemDeed (testState2 testGroup2) testGroup2 testFrag (.srsys 62 0x01A) = some e ∧ Issues (testState2 testGroup2) testGroup2 testFrag ∧
    e.Ready (testState2 testGroup2) testGroup2 testFrag := testMeets testIssues2 rfl rfl rfl rfl (by decide +kernel) (by decide +kernel)

theorem test_meets_SystemResults_3 : ∃ e, systemDeed (testState2 testGroup2) testGroup2 testFrag (.swsys 62 0x016) = some e ∧ Issues (testState2 testGroup2) testGroup2 testFrag ∧
    e.Ready (testState2 testGroup2) testGroup2 testFrag := testMeets testIssues2 rfl rfl rfl rfl (by decide +kernel) (by decide +kernel)

theorem test_meets_SystemResults_4 : ∃ e, systemDeed (testState2 testGroup2) testGroup2 testFrag (.wbase 127) = some e ∧ Issues (testState2 testGroup2) testGroup2 testFrag ∧
    e.Ready (testState2 testGroup2) testGroup2 testFrag := testMeets testIssues2 rfl rfl rfl rfl (by decide +kernel) (by decide +kernel)

theorem test_meets_SystemResults_5 : ∃ e, systemDeed (testState2 testGroup2) testGroup2 testFrag (.trapinfo 15 2) = some e ∧ Issues (testState2 testGroup2) testGroup2 testFrag ∧
    e.Ready (testState2 testGroup2) testGroup2 testFrag := testMeets testIssues2 rfl rfl rfl rfl (by decide +kernel) (by decide +kernel)

theorem test_meets_SystemResults_6 : ∃ e, systemDeed (testState2 testGroup2) testGroup2 testFrag (.rdver 63 13) = some e ∧ Issues (testState2 testGroup2) testGroup2 testFrag ∧
    e.Ready (testState2 testGroup2) testGroup2 testFrag := testMeets testIssues2 rfl rfl rfl rfl (by decide +kernel) (by decide +kernel)

theorem test_meets_SystemResults_7 : ∃ e, systemDeed (testState2 testGroup2) testGroup2 testFrag (.jset (-1)) = some e ∧ Issues (testState2 testGroup2) testGroup2 testFrag ∧
    e.Ready (testState2 testGroup2) testGroup2 testFrag := testMeets testIssues2 rfl rfl rfl rfl (by decide +kernel) (by decide +kernel)

theorem test_meets_SystemResults_8 : ∃ e, systemDeed (testState2 testGroup2) testGroup2 testFrag (.ychk) = some e ∧ Issues (testState2 testGroup2) testGroup2 testFrag ∧
    e.Ready (testState2 testGroup2) testGroup2 testFrag := testMeets testIssues2 rfl rfl rfl rfl (by decide +kernel) (by decide +kernel)

theorem test_meets_SystemResults_9 : ∃ e, systemDeed (testState2 testGroup2) testGroup2 testFrag (.mbatch 63) = some e ∧ Issues (testState2 testGroup2) testGroup2 testFrag ∧
    e.Ready (testState2 testGroup2) testGroup2 testFrag := testMeets testIssues2 rfl rfl rfl rfl (by decide +kernel) (by decide +kernel)

theorem test_meets_SystemResults_10 : ∃ e, systemDeed (testState2 testGroup2) testGroup2 testFrag (.lsupd 20 1) = some e ∧ Issues (testState2 testGroup2) testGroup2 testFrag ∧
    e.Ready (testState2 testGroup2) testGroup2 testFrag := testMeets testIssues2 rfl rfl rfl rfl (by decide +kernel) (by decide +kernel)

theorem test_meets_BranchResults_1 : ∃ e, branchDeed (testState2 testGroup2) testGroup2 testFrag (.bra 0 0 0 0x1FFFF) = some e ∧ Issues (testState2 testGroup2) testGroup2 testFrag ∧
    e.Ready (testState2 testGroup2) testGroup2 testFrag := testMeets testIssues2 rfl rfl rfl rfl (by decide +kernel) (by decide +kernel)

theorem test_meets_BranchResults_2 : ∃ e, branchDeed (testState2 testGroup2) testGroup2 testFrag (.bra 1 0 2 (-0x20000)) = some e ∧ Issues (testState2 testGroup2) testGroup2 testFrag ∧
    e.Ready (testState2 testGroup2) testGroup2 testFrag := testMeets testIssues2 rfl rfl rfl rfl (by decide +kernel) (by decide +kernel)

theorem test_meets_BranchResults_3 : ∃ e, branchDeed (testState2 testGroup2) testGroup2 testFrag (.call 15 1 3 1) = some e ∧ Issues (testState2 testGroup2) testGroup2 testFrag ∧
    e.Ready (testState2 testGroup2) testGroup2 testFrag := testMeets testIssues2 rfl rfl rfl rfl (by decide +kernel) (by decide +kernel)

theorem test_meets_BranchResults_4 : ∃ e, branchDeed (testState2 testGroup2) testGroup2 testFrag (.brx 1) = some e ∧ Issues (testState2 testGroup2) testGroup2 testFrag ∧
    e.Ready (testState2 testGroup2) testGroup2 testFrag := testMeets testIssues2 rfl rfl rfl rfl (by decide +kernel) (by decide +kernel)

theorem test_meets_BranchResults_5 : ∃ e, branchDeed (testState2 testGroup2) testGroup2 testFrag (.ret 2) = some e ∧ Issues (testState2 testGroup2) testGroup2 testFrag ∧
    e.Ready (testState2 testGroup2) testGroup2 testFrag := testMeets testIssues2 rfl rfl rfl rfl (by decide +kernel) (by decide +kernel)

theorem test_meets_BranchResults_6 : ∃ e, branchDeed (testState2 testGroup2) testGroup2 testFrag (.dbra 63 (-1)) = some e ∧ Issues (testState2 testGroup2) testGroup2 testFrag ∧
    e.Ready (testState2 testGroup2) testGroup2 testFrag := testMeets testIssues2 rfl rfl rfl rfl (by decide +kernel) (by decide +kernel)

theorem test_meets_RegionResults_1 : ∃ e, regionDeed (testState2 testGroup2) testGroup2 testFrag (.rgn 0xFFFF) = some e ∧ Issues (testState2 testGroup2) testGroup2 testFrag ∧
    e.Ready (testState2 testGroup2) testGroup2 testFrag := testMeets testIssues2 rfl rfl rfl rfl (by decide +kernel) (by decide +kernel)

theorem test_meets_RegionResults_2 : ∃ e, regionDeed (testState2 testGroup2) testGroup2 testFrag (.rgnSp 0) = some e ∧ Issues (testState2 testGroup2) testGroup2 testFrag ∧
    e.Ready (testState2 testGroup2) testGroup2 testFrag := testMeets testIssues2 rfl rfl rfl rfl (by decide +kernel) (by decide +kernel)

theorem test_meets_LongResults_1 : ∃ e, resultDeed (testState2 testGroup2) testGroup2 testFrag (.vfsqrt none 127 0 15) = some e ∧ Issues (testState2 testGroup2) testGroup2 testFrag ∧
    e.Ready (testState2 testGroup2) testGroup2 testFrag := testMeets testIssues2 rfl rfl rfl rfl (by decide +kernel) (by decide +kernel)

theorem test_meets_LongResults_2 : ∃ e, resultDeed (testState2 testGroup2) testGroup2 testFrag (.vred none 126 0 2 5 0) = some e ∧ Issues (testState2 testGroup2) testGroup2 testFrag ∧
    e.Ready (testState2 testGroup2) testGroup2 testFrag := testMeets testIssues2 rfl rfl rfl rfl (by decide +kernel) (by decide +kernel)

theorem test_meets_LongResults_3 : ∃ e, resultDeed (testState2 testGroup2) testGroup2 testFrag (.vscan none 127 0 0 0 15) = some e ∧ Issues (testState2 testGroup2) testGroup2 testFrag ∧
    e.Ready (testState2 testGroup2) testGroup2 testFrag := testMeets testIssues2 rfl rfl rfl rfl (by decide +kernel) (by decide +kernel)

theorem test_meets_LongResults_4 : ∃ e, resultDeed (testState2 testGroup2) testGroup2 testFrag (.rngc none 126 0 1 0) = some e ∧ Issues (testState2 testGroup2) testGroup2 testFrag ∧
    e.Ready (testState2 testGroup2) testGroup2 testFrag := testMeets testIssues2 rfl rfl rfl rfl (by decide +kernel) (by decide +kernel)

theorem test_meets_LoadResults_1 : ∃ e, loadsDeed (testState2 testGroup2) testGroup2 testFrag (.ld8s none 127 0 2 0 15) = some e ∧ Issues (testState2 testGroup2) testGroup2 testFrag ∧
    e.Ready (testState2 testGroup2) testGroup2 testFrag := testMeets testIssues2 rfl rfl rfl rfl (by decide +kernel) (by decide +kernel)

theorem test_meets_LoadResults_2 : ∃ e, loadsDeed (testState2 testGroup2) testGroup2 testFrag (.ld128 none 124 0 2 0 0) = some e ∧ Issues (testState2 testGroup2) testGroup2 testFrag ∧
    e.Ready (testState2 testGroup2) testGroup2 testFrag := testMeets testIssues2 rfl rfl rfl rfl (by decide +kernel) (by decide +kernel)

theorem test_meets_LoadResults_3 : ∃ e, loadsDeed (testState2 testGroup2) testGroup2 testFrag (.lds64 none 126 3 0 0) = some e ∧ Issues (testState2 testGroup2) testGroup2 testFrag ∧
    e.Ready (testState2 testGroup2) testGroup2 testFrag := testMeets testIssues2 rfl rfl rfl rfl (by decide +kernel) (by decide +kernel)

theorem test_meets_StoreResults_1 : ∃ e, storesDeed (testState2 testGroup2) testGroup2 testFrag (.st8 none 127 0 2 0 1 0) = some e ∧ Issues (testState2 testGroup2) testGroup2 testFrag ∧
    e.Ready (testState2 testGroup2) testGroup2 testFrag := testMeets testIssues2 rfl rfl rfl rfl (by decide +kernel) (by decide +kernel)

theorem test_meets_StoreResults_2 : ∃ e, storesDeed (testState2 testGroup2) testGroup2 testFrag (.st128 none 124 0 2 0 0 0) = some e ∧ Issues (testState2 testGroup2) testGroup2 testFrag ∧
    e.Ready (testState2 testGroup2) testGroup2 testFrag := testMeets testIssues2 rfl rfl rfl rfl (by decide +kernel) (by decide +kernel)

theorem test_meets_StoreResults_3 : ∃ e, storesDeed (testState2 testGroup2) testGroup2 testFrag (.st32 (some { str := 15, scope := 7 }) 0 0 2 0 0 1) = some e ∧ Issues (testState2 testGroup2) testGroup2 testFrag ∧
    e.Ready (testState2 testGroup2) testGroup2 testFrag := testMeets testIssues2 rfl rfl rfl rfl (by decide +kernel) (by decide +kernel)

theorem test_meets_StoreResults_4 : ∃ e, storesDeed (testState2 testGroup2) testGroup2 testFrag (.sts32 none 0 3 127) = some e ∧ Issues (testState2 testGroup2) testGroup2 testFrag ∧
    e.Ready (testState2 testGroup2) testGroup2 testFrag := testMeets testIssues2 rfl rfl rfl rfl (by decide +kernel) (by decide +kernel)

theorem test_meets_RequestResults_1 : ∃ e, requestDeed (testState2 testGroup2) testGroup2 testFrag (.atom none 126 4 0 0 15) = some e ∧ Issues (testState2 testGroup2) testGroup2 testFrag ∧
    e.Ready (testState2 testGroup2) testGroup2 testFrag := testMeets testIssues2 rfl rfl rfl rfl (by decide +kernel) (by decide +kernel)

theorem test_meets_RequestResults_2 : ∃ e, requestDeed (testState2 testGroup2) testGroup2 testFrag (.red (some { guard := 1 }) 0 126 0 0) = some e ∧ Issues (testState2 testGroup2) testGroup2 testFrag ∧
    e.Ready (testState2 testGroup2) testGroup2 testFrag := testMeets testIssues2 rfl rfl rfl rfl (by decide +kernel) (by decide +kernel)

theorem test_meets_RequestResults_3 : ∃ e, requestDeed (testState2 testGroup2) testGroup2 testFrag (.objcall (some { guard := 1 }) 0 2 127 0) = some e ∧ Issues (testState2 testGroup2) testGroup2 testFrag ∧
    e.Ready (testState2 testGroup2) testGroup2 testFrag := testMeets testIssues2 rfl rfl rfl rfl (by decide +kernel) (by decide +kernel)

theorem test_meets_RequestResults_4 : ∃ e, requestDeed (testState2 testGroup2) testGroup2 testFrag (.objpost (some { guard := 1 }) 0 2 0) = some e ∧ Issues (testState2 testGroup2) testGroup2 testFrag ∧
    e.Ready (testState2 testGroup2) testGroup2 testFrag := testMeets testIssues2 rfl rfl rfl rfl (by decide +kernel) (by decide +kernel)

theorem test_meets_RequestResults_5 : ∃ e, requestDeed (testState2 testGroup2) testGroup2 testFrag (.objbind 0 1 5) = some e ∧ Issues (testState2 testGroup2) testGroup2 testFrag ∧
    e.Ready (testState2 testGroup2) testGroup2 testFrag := testMeets testIssues2 rfl rfl rfl rfl (by decide +kernel) (by decide +kernel)

theorem test_meets_RequestResults_6 : ∃ e, requestDeed (testState2 testGroup2) testGroup2 testFrag (.objunbind 63 1) = some e ∧ Issues (testState2 testGroup2) testGroup2 testFrag ∧
    e.Ready (testState2 testGroup2) testGroup2 testFrag := testMeets testIssues2 rfl rfl rfl rfl (by decide +kernel) (by decide +kernel)

theorem test_meets_OrderingResults_1 : ∃ e, barrierDeed (testState2 testGroup2) testGroup2 testFrag (.bara none 63 0) = some e ∧ Issues (testState2 testGroup2) testGroup2 testFrag ∧
    e.Ready (testState2 testGroup2) testGroup2 testFrag := testMeets testIssues2 rfl rfl rfl rfl (by decide +kernel) (by decide +kernel)

theorem test_meets_OrderingResults_2 : ∃ e, barrierDeed (testState2 testGroup2) testGroup2 testFrag (.baraw none 0 1) = some e ∧ Issues (testState2 testGroup2) testGroup2 testFrag ∧
    e.Ready (testState2 testGroup2) testGroup2 testFrag := testMeets testIssues2 rfl rfl rfl rfl (by decide +kernel) (by decide +kernel)

theorem test_meets_OrderingResults_3 : ∃ e, barrierDeed (testState2 testGroup2) testGroup2 testFrag (.barw none 0 63) = some e ∧ Issues (testState2 testGroup2) testGroup2 testFrag ∧
    e.Ready (testState2 testGroup2) testGroup2 testFrag := testMeets testIssues2 rfl rfl rfl rfl (by decide +kernel) (by decide +kernel)

theorem test_meets_OrderingResults_4 : ∃ e, barrierDeed (testState2 testGroup2) testGroup2 testFrag (.waitv none 62 1 1 9) = some e ∧ Issues (testState2 testGroup2) testGroup2 testFrag ∧
    e.Ready (testState2 testGroup2) testGroup2 testFrag := testMeets testIssues2 rfl rfl rfl rfl (by decide +kernel) (by decide +kernel)

theorem test_meets_OrderingResults_5 : ∃ e, fenceDeed (testState2 testGroup2) testGroup2 testFrag (.fenceAcq none) = some e ∧ Issues (testState2 testGroup2) testGroup2 testFrag ∧
    e.Ready (testState2 testGroup2) testGroup2 testFrag := testMeets testIssues2 rfl rfl rfl rfl (by decide +kernel) (by decide +kernel)

theorem test_meets_OrderingResults_6 : ∃ e, fenceDeed (testState2 testGroup2) testGroup2 testFrag (.xfenceFull (some { scope := 7 }) 0xFFFF) = some e ∧ Issues (testState2 testGroup2) testGroup2 testFrag ∧
    e.Ready (testState2 testGroup2) testGroup2 testFrag := testMeets testIssues2 rfl rfl rfl rfl (by decide +kernel) (by decide +kernel)

theorem test_meets_QueueResults_1 : ∃ e, queueDeed (testState2 testGroup2) testGroup2 testFrag (.deqt none 15 0 15) = some e ∧ Issues (testState2 testGroup2) testGroup2 testFrag ∧
    e.Ready (testState2 testGroup2) testGroup2 testFrag := testMeets testIssues2 rfl rfl rfl rfl (by decide +kernel) (by decide +kernel)

theorem test_meets_QueueResults_2 : ∃ e, queueDeed (testState2 testGroup2) testGroup2 testFrag (.enq (some { guard := 1 }) 124 0) = some e ∧ Issues (testState2 testGroup2) testGroup2 testFrag ∧
    e.Ready (testState2 testGroup2) testGroup2 testFrag := testMeets testIssues2 rfl rfl rfl rfl (by decide +kernel) (by decide +kernel)

theorem test_meets_QueueResults_3 : ∃ e, queueDeed (testState2 testGroup2) testGroup2 testFrag (.cwait none 0) = some e ∧ Issues (testState2 testGroup2) testGroup2 testFrag ∧
    e.Ready (testState2 testGroup2) testGroup2 testFrag := testMeets testIssues2 rfl rfl rfl rfl (by decide +kernel) (by decide +kernel)

theorem test_meets_QueueResults_4 : ∃ e, queueDeed (testState2 testGroup2) testGroup2 testFrag (.gangset 31) = some e ∧ Issues (testState2 testGroup2) testGroup2 testFrag ∧
    e.Ready (testState2 testGroup2) testGroup2 testFrag := testMeets testIssues2 rfl rfl rfl rfl (by decide +kernel) (by decide +kernel)

theorem test_meets_QueueResults_5 : ∃ e, queueDeed (testState2 testGroup2) testGroup2 testFrag (.launch none 31 1 0) = some e ∧ Issues (testState2 testGroup2) testGroup2 testFrag ∧
    e.Ready (testState2 testGroup2) testGroup2 testFrag := testMeets testIssues2 rfl rfl rfl rfl (by decide +kernel) (by decide +kernel)

theorem test_meets_EngineResults_1 : ∃ e, engineDeed (testState2 testGroup2) testGroup2 testFrag (.hbind none 15 2 24) = some e ∧ Issues (testState2 testGroup2) testGroup2 testFrag ∧
    e.Ready (testState2 testGroup2) testGroup2 testFrag := testMeets testIssues2 rfl rfl rfl rfl (by decide +kernel) (by decide +kernel)

theorem test_meets_EngineResults_2 : ∃ e, engineDeed (testState2 testGroup2) testGroup2 testFrag (.feedWb none 63 15 2 1 1) = some e ∧ Issues (testState2 testGroup2) testGroup2 testFrag ∧
    e.Ready (testState2 testGroup2) testGroup2 testFrag := testMeets testIssues2 rfl rfl rfl rfl (by decide +kernel) (by decide +kernel)

theorem test_meets_EngineResults_3 : ∃ e, engineDeed (testState2 testGroup2) testGroup2 testFrag (.qfence 63) = some e ∧ Issues (testState2 testGroup2) testGroup2 testFrag ∧
    e.Ready (testState2 testGroup2) testGroup2 testFrag := testMeets testIssues2 rfl rfl rfl rfl (by decide +kernel) (by decide +kernel)

theorem test_meets_EngineResults_4 : ∃ e, engineDeed (testState2 testGroup2) testGroup2 testFrag (.qwait none 0 63) = some e ∧ Issues (testState2 testGroup2) testGroup2 testFrag ∧
    e.Ready (testState2 testGroup2) testGroup2 testFrag := testMeets testIssues2 rfl rfl rfl rfl (by decide +kernel) (by decide +kernel)

theorem test_meets_EngineResults_5 : ∃ e, engineDeed (testState2 testGroup2) testGroup2 testFrag (.cpy none 63 2 0) = some e ∧ Issues (testState2 testGroup2) testGroup2 testFrag ∧
    e.Ready (testState2 testGroup2) testGroup2 testFrag := testMeets testIssues2 rfl rfl rfl rfl (by decide +kernel) (by decide +kernel)

theorem test_meets_MatrixResults_1 : ∃ e, matrixDeed (testState2 testGroup2) testGroup2 testFrag (.mma none 5 0 1 0) = some e ∧ Issues (testState2 testGroup2) testGroup2 testFrag ∧
    e.Ready (testState2 testGroup2) testGroup2 testFrag := testMeets testIssues2 rfl rfl rfl rfl (by decide +kernel) (by decide +kernel)

theorem test_meets_MatrixResults_2 : ∃ e, matrixDeed (testState2 testGroup2) testGroup2 testFrag (.mzero none 5) = some e ∧ Issues (testState2 testGroup2) testGroup2 testFrag ∧
    e.Ready (testState2 testGroup2) testGroup2 testFrag := testMeets testIssues2 rfl rfl rfl rfl (by decide +kernel) (by decide +kernel)

theorem test_meets_MatrixResults_3 : ∃ e, matrixDeed (testState2 testGroup2) testGroup2 testFrag (.mlda none 5) = some e ∧ Issues (testState2 testGroup2) testGroup2 testFrag ∧
    e.Ready (testState2 testGroup2) testGroup2 testFrag := testMeets testIssues2 rfl rfl rfl rfl (by decide +kernel) (by decide +kernel)

theorem test_meets_MatrixResults_4 : ∃ e, matrixDeed (testState2 testGroup2) testGroup2 testFrag (.mnorm none 5) = some e ∧ Issues (testState2 testGroup2) testGroup2 testFrag ∧
    e.Ready (testState2 testGroup2) testGroup2 testFrag := testMeets testIssues2 rfl rfl rfl rfl (by decide +kernel) (by decide +kernel)

theorem test_meets_MatrixResults_5 : ∃ e, matrixDeed (testState2 testGroup2) testGroup2 testFrag (.mtr none 5 2 0 7) = some e ∧ Issues (testState2 testGroup2) testGroup2 testFrag ∧
    e.Ready (testState2 testGroup2) testGroup2 testFrag := testMeets testIssues2 rfl rfl rfl rfl (by decide +kernel) (by decide +kernel)

theorem test_meets_MatrixResults_6 : ∃ e, matrixDeed (testState2 testGroup2) testGroup2 testFrag (.mmas none 5 0 1 0) = some e ∧ Issues (testState2 testGroup2) testGroup2 testFrag ∧
    e.Ready (testState2 testGroup2) testGroup2 testFrag := testMeets testIssues2 rfl rfl rfl rfl (by decide +kernel) (by decide +kernel)

theorem test_meets_MatrixResults_7 : ∃ e, matrixDeed (testState2 testGroup2) testGroup2 testFrag (.mmap none 5 0 0) = some e ∧ Issues (testState2 testGroup2) testGroup2 testFrag ∧
    e.Ready (testState2 testGroup2) testGroup2 testFrag := testMeets testIssues2 rfl rfl rfl rfl (by decide +kernel) (by decide +kernel)

theorem test_meets_MatrixResults_8 : ∃ e, matrixReadDeed (testState2 testGroup2) testGroup2 testFrag (.mstatSkip none 127 0) = some e ∧ Issues (testState2 testGroup2) testGroup2 testFrag ∧
    e.Ready (testState2 testGroup2) testGroup2 testFrag := testMeets testIssues2 rfl rfl rfl rfl (by decide +kernel) (by decide +kernel)

theorem test_meets_MatrixResults_9 : ∃ e, matrixReadDeed (testState2 testGroup2) testGroup2 testFrag (.mwait none 20) = some e ∧ Issues (testState2 testGroup2) testGroup2 testFrag ∧
    e.Ready (testState2 testGroup2) testGroup2 testFrag := testMeets testIssues2 rfl rfl rfl rfl (by decide +kernel) (by decide +kernel)

theorem test_meets_MatrixResults_10 : ∃ e, matrixReadDeed (testState2 testGroup2) testGroup2 testFrag (.mlbl none 7 3) = some e ∧ Issues (testState2 testGroup2) testGroup2 testFrag ∧
    e.Ready (testState2 testGroup2) testGroup2 testFrag := testMeets testIssues2 rfl rfl rfl rfl (by decide +kernel) (by decide +kernel)


/-- Predicate 1 is false in every lane: the command has no effect. -/
theorem test_meets_MatrixResults_11 : ∃ e, matrixDeed (testState2 testGroup2) testGroup2 testFrag (.mma (some { guard := 1 }) 5 0 1 0) = some e ∧
    Issues (testState2 testGroup2) testGroup2 testFrag ∧ e.Ready (testState2 testGroup2) testGroup2 testFrag :=
  testMeets testIssues2 rfl rfl rfl rfl (by decide +kernel) (by decide +kernel)
theorem test_meets_QueueResults_deq : ∃ e, queueDeed (testState2 testGroup2) testGroup2 testFrag (.deq none 15 0 15) = some e ∧
    Issues (testState2 testGroup2) testGroup2 testFrag ∧ e.Ready (testState2 testGroup2) testGroup2 testFrag :=
  testMeets testIssues2 rfl rfl rfl rfl (by decide +kernel) (by decide +kernel)

/-- Registers that name planes: a base at 0x20000 with strides 0x1000 and 16, and a scale at 0x30000. -/
def testGroup3 : Group := ((((testGroup.setS 40 0x20000).setS 42 0x1000).setS 43 16).setS 44 0x30000)

theorem testIssues3 : Issues (testState testGroup3) testGroup3 testFrag := ⟨rfl, by decide +kernel, rfl⟩

theorem test_meets_PlaneResults_1 : ∃ e, planesDeed (testState testGroup3) testGroup3 testFrag (.pld none 120 20 7 1 15) = some e ∧
    Issues (testState testGroup3) testGroup3 testFrag ∧ e.Ready (testState testGroup3) testGroup3 testFrag :=
  testMeets testIssues3 rfl rfl rfl rfl (by decide +kernel) (by decide +kernel)

theorem test_meets_PlaneResults_2 : ∃ e, planesDeed (testState testGroup3) testGroup3 testFrag (.pst none 127 20 7) = some e ∧
    Issues (testState testGroup3) testGroup3 testFrag ∧ e.Ready (testState testGroup3) testGroup3 testFrag :=
  testMeets testIssues3 rfl rfl rfl rfl (by decide +kernel) (by decide +kernel)

theorem test_meets_PlaneResults_3 : ∃ e, planeAddDeed (testState testGroup3) testGroup3 testFrag (.paddc none 63 10 11 15) = some e ∧
    Issues (testState testGroup3) testGroup3 testFrag ∧ e.Ready (testState testGroup3) testGroup3 testFrag :=
  testMeets testIssues3 rfl rfl rfl rfl (by decide +kernel) (by decide +kernel)

/-- Nothing outstanding: every unit is clear. -/
theorem testClear {g : Group} {f : Frag} (ss : List Nat) (ho : f.outs = []) (hf : g.frags = [f]) : Clear g f [] ss ∧ ClearPath g f [] ss :=
  ⟨⟨by simp, by simp [ho], by simp [ho], by simp [hf]⟩, ⟨by simp, by simp [ho], by simp [hf]⟩⟩

/-- One lane goes the other way. -/
theorem test_meets_DivergentBranch :
    let g := testGroup.setP 1 0xFFFFFFFF 0x80000000
    Issues (testState g) g testFrag ∧ (1 : BitVec 4) ≠ 0 ∧ takes g testFrag 1 0 ≠ 0 ∧ takes g testFrag 1 0 ≠ testFrag.mask ∧ Clear g testFrag [] [63] :=
  ⟨⟨rfl, by decide +kernel, rfl⟩, by decide, by decide +kernel, by decide +kernel, (testClear _ rfl rfl).1⟩

theorem test_meets_ExitRetires : Issues (testState testGroup) testGroup testFrag ∧ ClearPath testGroup testFrag [] [] ∧ Plain testGroup :=
  ⟨⟨rfl, by decide +kernel, rfl⟩, (testClear _ rfl rfl).2, ⟨rfl, rfl⟩⟩

theorem test_meets_TrapsStartHandler : Issues (testState testGroup) testGroup testFrag ∧ Plain testGroup ∧ testGroup.trapWait = none ∧ AllLanded testGroup ∧
    (testState testGroup).gridOf testGroup = some testGrid ∧ testGrid.record.vector ≠ 0 ∧ ClearPath testGroup testFrag [] [] :=
  ⟨⟨rfl, by decide +kernel, rfl⟩, ⟨rfl, rfl⟩, rfl, fun x hx o ho => by simp_all [testGroup, testFrag, freshFrag], by decide +kernel, by decide,
    (testClear _ rfl rfl).2⟩

/-- In a handler of fragment 7: the return address of mode 2 is in s2. -/
def testHandling : Group :=
  { testGroup.setS 2 0x8000 with
    frags := [testFrag, freshFrag 7 0xFFFFFFFF 0x10040 0]
    handler := some { frag := 7, mask := 0xFFFFFFFF, held := [7], stage := {} } }

theorem test_meets_TrapReturns : Issues (testState testHandling) testHandling testFrag ∧ AllLanded testHandling ∧
    testHandling.handler = some { frag := 7, mask := 0xFFFFFFFF, held := [7], stage := {} } ∧ testFrag.mask = 0xFFFFFFFF ∧
    (∀ x ∈ testHandling.frags, x.pending = []) ∧ stopPending (testState testHandling) testHandling = false ∧
    ClearPath testHandling testFrag [] [2 * 1, 2 * 1 + 1] ∧ (testHandling.getPair (2 * 1)).toNat % 4 = 0 :=
  ⟨⟨rfl, by decide +kernel, rfl⟩, fun x hx o ho => by simp [testHandling] at hx; rcases hx with rfl | rfl <;> simp [testFrag, freshFrag] at ho, rfl, rfl, by decide +kernel, by decide +kernel,
    ⟨by simp, by simp [testFrag, freshFrag], fun x hx _ o ho => by simp [testHandling] at hx; rcases hx with rfl | rfl <;> simp [testFrag, freshFrag] at ho⟩, by decide +kernel⟩

/-- A request of a method of home 0, and the batch of it that service group 3 runs, with the status that each clause needs in v1. -/
def testRequest : Request :=
  { id := 60, home := 0, source := 0, lane := 4, base := 0xB000, loc := .mem 0xB000, ask := .method 2, op0 := 1, op1 := 2, rights := { part := 0, sys := false }
    grid := some 9, reply := some { group := 3, frag := 5, out := 30 }, pc := 0x10000, group := some 3, str := 0, frag := 5, unit := 1, time := none, port := none }

/-- R325, R334: a load sees the atomic that its own group holds, here an exchange. -/
theorem test_held_atomic :
    heldByte [.request { testRequest with ask := .intrinsic 6 0, loc := .mem 0x8000, op0 := 0x0500 }] (fun _ => 9) (.mem 0x8001) = 5 := by decide +kernel

/-- R109, R118: −127.5 rounds beyond the largest i8, so it is −127; a block of n8 with a negative value is zero. -/
theorem test_quant_i8 : quantBlock (.int true 8) 0 [.fin true 255 (-1)] = (127, [0x81]) := by decide +kernel
theorem test_quant_n8 : quantBlock (.int false 8) 0 [.fin true 200 0, .fin false 1 0] = (0, [0, 0]) := by decide +kernel

def testBin : Bin := { num := 1, obj := 0xB000, ask := .method 2, reqs := [testRequest] }

def testBatch : Batch := { sg := 3, bin := testBin, entry := 0x10000, rights := { part := 0, sys := false }, buffer := [], posts := [], pause := none }

def testService : Group := { testGroup.setV 1 0 0x7F with role := .service 0 3, frags := [{ testFrag with mask := 1 }], granules := 8 }

def testBatchState : State := { testState testService with homes := [{ newHome 0 with batches := [testBatch] }] }

theorem test_meets_MethodEnds : Issues testBatchState testService { testFrag with mask := 1 } ∧ testService.role = .service 0 3 ∧
    batchOf testBatchState testService = some testBatch ∧ (1 : Word) = maskOf (List.range testBatch.bin.reqs.length) ∧
    ClearPath testService { testFrag with mask := 1 } [testService.abs 0, testService.abs 1] [] ∧
    (∀ i < testBatch.bin.reqs.length, 0 < (testService.getV (testService.abs 1) i &&& 0xFF#32).toNat ∧
      (testService.getV (testService.abs 1) i &&& 0xFF#32).toNat < 0xF0) ∧ (∀ r ∈ testBatch.bin.reqs, r.reply.isSome = true) ∧
    (testBatch.found.isSome = true ∨ pooledWords testBatchState testBatch = []) :=
  ⟨⟨rfl, by decide +kernel, rfl⟩, rfl, by decide +kernel, by decide +kernel, ⟨by decide +kernel, by simp [testFrag, freshFrag], by simp [testService]⟩,
    by decide +kernel, by decide +kernel, by decide +kernel⟩

/-- A batch that has stored one byte of a pool's word. -/
theorem test_meets_MethodEnds_pooled :
    let b := { testBatch with buffer := [(2 * poolKey 0, 1)] }
    let s := { testState testService with homes := [{ newHome 0 with batches := [b] }] }
    batchOf s testService = some b ∧ b.found = none ∧ pooledWords s b ≠ [] ∧ b.pooled = true ∧ poolBusy s 0 (some 3) none = false ∧
      poolBusy (s.modHome 0 fun h => { h with found := some (99, []) }) 0 (some 3) none = true := by decide +kernel

/-- The checks that trap: SNAP of a group of no right; a touch in a window of one unit; a register just outside the allocation; BRX and LD.32 to an
address that is 2 modulo 4. -/
def testWindow : Out :=
  { id := 1, kind := .load, regs := [.v 8], window := 1, interlock := false, landed := true, str := 0, writes := [], awaits := [], replies := [], addrs := []
    trap := none, flits := [], pc := 0, quantum := 0 }

theorem test_meets_ChecksTrap_1 : Issues (testState testGroup) testGroup testFrag ∧ (testState testGroup).isSysGroup testGroup = false ∧
    (((testState testGroup).part? testGroup.part).all fun x => x.snapAllow == false) = true := ⟨⟨rfl, by decide +kernel, rfl⟩, by decide +kernel, by decide +kernel⟩

theorem test_meets_ChecksTrap_2 :
    let f := { testFrag with outs := [testWindow] }
    let g := { testGroup with frags := [f] }
    Issues (testState g) g f ∧ Plain g ∧ AllLanded g ∧ ∃ r, vectorRow g f (.vmov none 9 8) = some r ∧
      (∃ o ∈ f.outs, o.interlock = false ∧ 0 < o.window ∧ ∃ x ∈ o.regs, named r.vs r.ss x = true) :=
  ⟨⟨rfl, by decide +kernel, rfl⟩, ⟨rfl, rfl⟩, by intro x hx o ho; simp at hx; subst hx; simp [testWindow] at ho; simp [ho],
    _, rfl, testWindow, by simp, rfl, by decide, .v 8, by simp [testWindow], by decide⟩

theorem test_meets_ChecksTrap_3 :
    let g := { testGroup with granules := 1 }
    Issues (testState g) g testFrag ∧ ∃ r, floatRow g testFrag (.vfadd none 0 8 0 0) = some r ∧
      (∀ o ∈ testFrag.outs, ∀ x ∈ o.regs, named r.vs r.ss x = true → o.interlock = true ∨ o.window = 0) ∧ ∃ n ∈ r.vs, 8 * g.granules ≤ n :=
  ⟨⟨rfl, by decide +kernel, rfl⟩, _, rfl, by simp [testFrag, freshFrag], 8, by decide, by decide⟩

theorem test_meets_ChecksTrap_4 :
    let g := testGroup.setS 2 0x8002
    Issues (testState g) g testFrag ∧ Clear g testFrag [] [2 * 1, 2 * 1 + 1] ∧ (g.getPair (2 * 1)).toNat % 4 ≠ 0 ∧
      ((lanesOf (activeOf g testFrag none)).filter fun i => (memAddr g 0 2 4 i).toNat % 4 != 0) ≠ [] :=
  ⟨⟨rfl, by decide +kernel, rfl⟩, (testClear _ rfl rfl).1, by decide +kernel, by decide +kernel⟩

/-! #### Events: the device and its partitions -/

/-- The device at a stage; and, ready, with partition 0. -/
def testDev (f : Device → Device) : State := { State.reset with dev := f Device.reset }
def testReadyDev : State := { loadPartition State.reset with dev := { Device.reset with stage := 4 } }
def testPart (f : Part → Part) : State := testReadyDev.modPart 0 f

theorem test_meets_DeviceResets : State.reset.dev.powered = true ∧ memoryOk State.reset := by decide

/-- An image of the very security version that the counter holds, and one below it. -/
def testImage : Firmware := { version := 5, digest := 7, signed := true }

theorem test_meets_BringUp_1 : (testDev id).dev.powered = true ∧ (testDev id).dev.stage = 1 ∧ (testDev id).dev.loading = none := by decide
theorem test_meets_BringUp_2 :
    let d := (testDev fun d => { d with loading := some testImage, security := 5 }).dev
    d.stage = 1 ∧ d.loading = some testImage ∧ testImage.signed = true ∧ d.security.toNat ≤ testImage.version.toNat := by decide
theorem test_meets_BringUp_3 :
    let d := (testDev fun d => { d with loading := some testImage, security := 6 }).dev
    d.stage = 1 ∧ d.loading = some testImage ∧ (testImage.signed = false ∨ testImage.version.toNat < d.security.toNat) := by decide
theorem test_meets_BringUp_4 : (testDev fun d => { d with stage := 2 }).dev.powered = true ∧ (testDev fun d => { d with stage := 2 }).dev.stage = 2 ∧
    memoryOk (testDev fun d => { d with stage := 2 }) := by decide
theorem test_meets_BringUp_5 : (testDev fun d => { d with stage := 3 }).dev.powered = true ∧ (testDev fun d => { d with stage := 3 }).dev.stage = 3 := by decide
theorem test_meets_BringUp_6 : ((testDev fun d => { d with stage := 4, security := 5 }).dev.stage = 4 ∨ False) ∧ testImage.signed = true ∧
    (testDev fun d => { d with stage := 4, security := 5 }).dev.security.toNat ≤ testImage.version.toNat := by decide
theorem test_meets_BringUp_8 : (testDev fun d => { d with stage := 4, sigIndex := 2 ^ 20 - 1 }).dev.stage = 4 ∧
    (testDev fun d => { d with stage := 4, sigIndex := 2 ^ 20 - 1 }).dev.sigIndex < 2 ^ 20 := by decide
theorem test_meets_BringUp_9 : (testDev fun d => { d with stage := 4, sigIndex := 2 ^ 20 }).dev.stage = 4 ∧
    2 ^ 20 ≤ (testDev fun d => { d with stage := 4, sigIndex := 2 ^ 20 }).dev.sigIndex := by decide

theorem test_meets_ControlBlock : testReadyDev.dev.powered = true ∧ testReadyDev.dev.stage = 4 ∧ (testReadyDev.part? 0).isSome = true ∧
    ((0xBFFFFFF000 : Dword).toNat % 4096 = 0 ∧ (0xBFFFFFF000 : Dword).toNat < 768 * 2 ^ 30 ∧ 768 * 2 ^ 30 ≤ (0xC000000000 : Dword).toNat) ∧
    (1000 ≤ (1000 : Dword).toNat ∧ (1000000 : Dword).toNat ≤ 1000000) ∧ ¬(1000 ≤ (999 : Dword).toNat ∧ (999 : Dword).toNat ≤ 1000000) ∧
    (255 : Dword).toNat ≤ 255 ∧ (15 < 16 ∧ ((testReadyDev.part? 0).bind fun x => x.launch[15]?).isSome = true ∧
      2 ≤ ((48 : Dword).extractLsb' 0 5).toNat ∧ ((48 : Dword).extractLsb' 0 5).toNat ≤ 16 ∧ (48 : Dword).toNat < 64) ∧
    ((testReadyDev.part? 0).any fun x => x.tier == .run) = true ∧ ((testPart fun p => { p with tier := .force }).part? 0).any (fun x => x.tier == .force) = true ∧
    (∀ g ∈ testReadyDev.groups, g.part = 0 → ∀ f ∈ g.frags, f.watching = false) := by decide +kernel

/-- The last of every resource; and a cluster that partition 0 has. -/
def testAssignment : Assignment := { partition := 7, clusters := [35], quarters := [15], engines := [63], ports := [0, 63] }

theorem test_meets_PartitionAssign :
    let s := testPart fun p => { p with quarters := [0] }
    s.dev.powered = true ∧ s.dev.stage = 4 ∧ s.part? testAssignment.partition = none ∧ assignOk s testAssignment = true ∧
      assignOk s { testAssignment with clusters := [0] } = false := by decide +kernel

/-- Rings with one entry produced: the count that is all of it, and one beyond. -/
def testRings : State := testPart fun p => { p with errProd := 1, faultProd := 1, faultK := 4, errK := 4, faults := [{ seq := 1, addr := 0x8000 }] }

theorem test_meets_Rings_1 : (testRings.part? 0).any (fun x => x.words == [] && decide (((1 : Word) - x.errCons).toNat ≤ (x.errProd - x.errCons).toNat) &&
    decide ((x.errProd - x.errCons).toNat < ((2 : Word) - x.errCons).toNat) && decide (((1 : Word) - x.faultCons).toNat ≤ (x.faultProd - x.faultCons).toNat) &&
    decide ((x.faultProd - x.faultCons).toNat < ((2 : Word) - x.faultCons).toNat) && x.faults.all fun r => r.seq != 2) = true ∧
    (∀ g ∈ testRings.groups, g.part = 0 → ∀ f ∈ g.frags, f.stalled = false) := by decide +kernel

/-- A fragment stalled on record 1. -/
def testStalled : Group := { testGroup with frags := [{ testFrag with wait := some (.stall [1] [] [(0, 0x8000)] false) }] }

theorem test_meets_Rings_2 :
    let s := (testState testStalled).modPart 0 fun p => { p with faults := [{ seq := 1, addr := 0x8000 }] }
    s.group? 3 = some testStalled ∧ (s.coreOf testStalled).isSome = true ∧ testStalled.part = 0 ∧ testStalled.role = .ordinary ∧ testStalled.handler = none ∧
      (∀ y ∈ s.groups, ∀ z ∈ y.frags, z.stalled = true → y.id = 3 ∧ z.id = 5) ∧
      (s.part? 0).any (fun x => x.words == [] && (x.faults.find? fun y => y.seq == 1).isSome) = true := by decide +kernel

/-- A launch record of one team of one group (05 R124): version 1, class 1, entry 0x10000, 8 registers. -/
def testRecordBytes : List Byte :=
  ([0x01000001, 0x01000000, 1, 0, 0x10000, 0, 0, 0, 0, 0, 0, 0, 0, 0, 0, 0, 8].flatMap fun w => bytesOfWord (BitVec.ofNat 32 w)) ++ List.replicate 188 0

theorem test_meets_Rings_3 :
    let s := testPart fun p => { p with launch := p.launch.set 15 { base := 0x50000, k := 2 } }
    ((s.part? 0).any fun x => (x.launch[15]?).any fun l => checkRecord x l.sys testRecordBytes == 0 && decide (2 ≤ l.k) &&
      decide (l.items.length < 2 ^ l.k)) = true ∧ memoryOk s := by decide +kernel

/-! #### Pre-emption, launches, placement, eviction -/

def testTier (t : Tier) : State := (testState testGroup).modPart 0 fun p => { p with tier := t }

theorem test_meets_Preemption_1 : ((testTier .halted).part? 0).any (fun x => x.tier == .halted) = true ∧
    (let s := testPart fun p => { p with tier := .drain }; (s.part? 0).any (fun x => x.tier == .drain && drained s x) = true) := by decide +kernel

theorem test_meets_Preemption_2 : ((testTier .drain).part? 0).any (fun x => x.tier == .drain) = true ∧ testGroup ∈ (testTier .drain).groups ∧
    testGroup.part = 0 ∧ testGroup.role = .ordinary ∧ testGroup.handler = none ∧ testGroup.trapWait = none ∧ testGroup.exited = false ∧
    (∀ y ∈ (testTier .drain).groups, y.id = testGroup.id → y = testGroup) ∧
    ((testTier .swap).part? 0).any (fun x => x.tier == .swap && !(allStopped (testTier .swap) x)) = true := by decide +kernel

/-- Every fragment stopped, and a saved context to bring back. -/
def testStopped : State :=
  { (testState { testGroup with frags := [{ testFrag with stopped := true }] }) with
    shadow := [{ part := 0, clusters := [0], ctx := {} }], images := [sealImage 0 { part := 0, clusters := [0], ctx := { copies := newCopies 0 } }] }

theorem test_meets_Preemption_3 :
    let s := testStopped.modPart 0 fun p => { p with tier := .force }
    ((s.part? 0).any fun x => x.tier == .force && allStopped s x && savedContext s x == some {}) = true := by decide +kernel

theorem test_meets_Preemption_4 : ((testStopped.part? 0).any fun x => x.tier == .run && x.invalidating == none && savedContext testStopped x == some {}) = true ∧
    (∀ x, testStopped.part? 0 = some x → (testStopped.images.find? fun y => y.addr == x.image && y.passes x).isSome = true) ∧
    ∀ x, ((testState testGroup).images.find? fun y => y.addr == x.image && y.passes x) = none := by
  refine ⟨by decide +kernel, fun x hx => ?_, fun x => rfl⟩
  have : x.image = 0 ∧ x.id = 0 ∧ x.clusters = [0] := by
    have h : ((testStopped.part? 0).all fun x => x.image == 0 && x.id == 0 && x.clusters == [0]) = true := by decide +kernel
    simpa [hx, and_assoc] using h
  simp [testStopped, sealImage, Image.passes, Saved.of, this]

/-- A launch queue whose head is a record, an ended record, an immediate record of the child, or a fence. -/
def testQueued (r : LaunchRecord) (ended : Bool) : QueuedRecord :=
  { record := r, number := 7, launcher := { team := some 2, sys := false }, reserved := false, ended := ended }
def testLaunchState (r : LaunchRecord) (ended : Bool) : State :=
  (testState testGroup).modPart 0 fun p => { p with launch := p.launch.set 0 { base := 0x50000, k := 2, items := [testQueued r ended] } }
def testHead (s : State) (f : QueuedRecord → Bool) : Bool :=
  ((s.part? 0).bind fun x => (x.launch[0]?).bind fun l => l.items.head?).any f && partWorks s 0

theorem test_meets_Records_1 : testHead (testLaunchState testRecord false) (fun r => !r.reserved && !r.record.isFence && !r.ended && !r.record.indirect) = true := by
  decide +kernel
theorem test_meets_Records_2 : testHead (testLaunchState testRecord true) (fun r => !r.reserved && !r.record.isFence && r.ended) = true := by decide +kernel
theorem test_meets_Records_3 :
    let s := { testLaunchState { testRecord with kind := 1 } false with grids := [{ testGrid with retired := true }] }
    testHead s (fun r => !r.reserved && r.record.isFence && r.record.complete == 0) = true ∧ (∀ d ∈ s.allGrids, d.part = 0 → d.queue = 0 → d.retired = true) := by
  decide +kernel
theorem test_meets_Records_4 :
    let s := testLaunchState { testRecord with kind := 1 } false
    testHead s (fun r => !r.reserved && r.record.isFence) = true ∧ ∃ d ∈ s.allGrids, d.part = 0 ∧ d.queue = 0 ∧ d.retired = false := by decide +kernel

/-- A grid whose one group has exited, launched by the other team. -/
def testExited : State :=
  let d := { testGrid with launcher := { team := some 8, sys := false } }
  { testState { testGroup with exited := true, frags := [] } with grids := [d], teams := [testTeam, { testTeam with id := 8, grid := 10 }] }

theorem test_meets_GridRetires :
    let d := { testGrid with launcher := { team := some 8, sys := false } }
    testExited.grid? 9 = some d ∧ canRetire testExited d = true ∧ d.record.complete = 0 ∧ testExited.team? 8 = some { testTeam with id := 8, grid := 10 } ∧
      (∀ z ∈ testExited.teams, z.id = 8 → z = { testTeam with id := 8, grid := 10 }) := by decide +kernel

/-- A grid with a team to place; with a gang of two, and a set left of one team. -/
def testToPlace (r : LaunchRecord) (teams : Nat) : State :=
  { testState testGroup with grids := [{ testGrid with id := 10, record := r, next := 0, teams := teams }], groups := [], teams := [] }

theorem test_meets_Placement_1 :
    let s := testToPlace testRecord 1
    let d := { testGrid with id := 10, next := 0 }
    s.grid? 10 = some d ∧ d.phase = none ∧ d.record.gangPref = 0 ∧ ((s.part? 0).any fun x => placesNext s x d && (partCores x).contains 3) = true ∧
      coreTakesNew s 3 d.record 1 = true := by decide +kernel

theorem test_meets_Placement_2 :
    let r := { testRecord with gangPref := 2, gangFall := 2, vDemand := 64 }
    let s := testToPlace r 2
    let d := { testGrid with id := 10, record := r, next := 0, teams := 2 }
    s.grid? 10 = some d ∧ d.record.gangPref ≠ 0 ∧
      ((s.part? 0).any fun x => placesNext s x d && setSizeOf s x d == some [0, 1].length && setFits s x d [0, 1]) = true := by decide +kernel

/-- A team parked in a DEQ, with a save slot, an eviction threshold of 5, and a team of another grid that waits for its core. -/
def testParked : State :=
  let d := { testGrid with record := { testRecord with evict := 5 } }
  { (testState { testGroup with frags := [{ testFrag with wait := some (.deq 0 0 0 0) }] }).modPart 0 fun p => { p with
      saveBase := 0x100000, saveBytes := 0x200000, saveSlots := 1, clusters := [0], relaunch := [77] } with grids := [d] }

theorem test_meets_Evictions_1 : testParked.team? 2 = some testTeam ∧ ((testParked.part? 0).any fun x => placing x && otherWork testParked x &&
      (setOf testParked testTeam).all (fun z => qualifies testParked z && evictable testParked z && z.part == 0 && testParked.team? z.id == some z) &&
      slotsFor testParked x (setOf testParked testTeam)) = true ∧ (testParked.grid? testTeam.grid).isSome = true := by decide +kernel

theorem test_meets_Evictions_2 :
    let y := { testTeam with chosen := some true }
    let s := { testParked with teams := [y] }
    s.team? 2 = some y ∧ y.chosen.isSome = true ∧ y.chosen ≠ none ∧ ((s.part? 0).any fun x => placing x && slotsFor s x (setOf s y) &&
      (setOf s y).all (fun z => (groupsOf s z).all groupStopped && teamQuiet s z && z.part == 0 && s.team? z.id == some z && z.place == .core 0)) = true := by
  decide +kernel

/-- Cells at an address. -/
def testCells (k : Nat) (f : Nat → Byte) (a n : Nat) : Cells := (List.range' a n).map fun i => (k + i, f i)

theorem test_sget_skip (k : Nat) : ∀ (l m : Cells), (∀ x ∈ l, x.1 < k) → sget (0 : Byte) (l ++ m) k = sget 0 m k
  | [], _, _ => rfl
  | x :: l, m, h => by
    have hx := h x (by simp)
    have ih := test_sget_skip k l m fun y hy => h y (by simp [hy])
    rw [List.cons_append, sget, ih]
    rw [if_neg (Nat.ne_of_gt hx), if_neg (Nat.lt_asymm hx)]

theorem test_sget_cells (k : Nat) (f : Nat → Byte) (j : Nat) : ∀ (n a : Nat), a ≤ j → j < a + n → sget (0 : Byte) (testCells k f a n) (k + j) = f j
  | 0, a, _, _ => by omega
  | n + 1, a, h1, h2 => by
    have e : testCells k f a (n + 1) = (k + a, f a) :: testCells k f (a + 1) n := rfl
    rw [e, sget]
    rcases Nat.eq_or_lt_of_le h1 with rfl | h
    · simp
    · have ih := test_sget_cells k f j n (a + 1) (by omega) (by omega)
      rw [ih]
      rw [if_neg (show ¬(k + j = k + a) by omega), if_neg (show ¬(k + j < k + a) by omega)]

/-- A team saved in slot 0 at 0x100000: the header, the header of its group's record at 0x100900, and that record's split table block. -/
def testSavedTeam : Team := { testTeam with place := .evicted 0 0 true }
def testHeader : List (Nat × Nat × Nat) :=
  [(0x100000, 2, 1), (0x100002, 1, 1), (0x100004, 4, 65536), (0x100008, 4, 1), (0x100010, 4, testRecord.poolWord.toNat),
    (0x100018, 8, areaSize testRecord 65536), (0x100900, 2, 1), (0x100902, 2, testGroup.granules), (0x100904, 2, testGroup.tiles),
    (0x100906, 1, testGroup.handleN)]
def testHeaderCells : Cells := testHeader.flatMap fun x => (bytesOfNat x.2.1 x.2.2).mapIdx fun i b => (x.1 + i, b)
def testSaved : State :=
  { testParked with
    teams := [testSavedTeam], mem := testHeaderCells ++ testCells 0x100940 (Config.splitByte 0 testGroup.num) 0 512
    parts := testParked.parts.map fun p => if p.id = 0 then { p with relaunch := [2] } else p }

theorem test_meets_Evictions_3 : testSaved.team? 2 = some testSavedTeam ∧ (testSaved.grid? 9).isSome = true ∧
    (testSaved.part? 0).any (fun x => placing x && ((firstRelaunch testSaved x).any fun z => z.id == 2) && (partCores x).contains 0 &&
      coreTakesBack testSaved 0 [] testSavedTeam && ((testSaved.grid? 9).any fun d => headerOk testSaved (x.saveBase.toNat + 0 * x.saveBytes.toNat) d testSavedTeam &&
        recordAt (x.saveBase.toNat + 0 * x.saveBytes.toNat) d testGroup.num == 0x100900)) = true ∧
    (groupsOf testSaved testSavedTeam).all (fun g => g.granules == testGroup.granules && g.tiles == testGroup.tiles && g.handleN == testGroup.handleN && g.num == testGroup.num) = true := by
  decide +kernel

/-- The check of a group record, but its split table block. -/
def recordHead (s : State) (g : Group) : Bool :=
  let h := readKeys s 0x100900 64
  fieldOf h 0 2 == 1 && fieldOf h 2 2 == g.granules && fieldOf h 4 2 == g.tiles && fieldOf h 6 1 == g.handleN && fieldOf h 7 1 == 0 &&
    fieldOf h 0xA 2 == 0 && fieldOf h 0xC 4 / 8 == 0 && fieldOf h 0x1C 4 == 0 && allZero h 0x34 12

/-- The group's record passes its check. -/
theorem test_meets_Evictions_4 : ∀ g ∈ groupsOf testSaved testSavedTeam, recordOk testSaved 0x100900 testSavedTeam.saveTag g = true := by
  have hb : readKeys testSaved 0x100940 512 = splitBlock 0 testGroup.num := by
    unfold readKeys splitBlock
    apply List.map_congr_left
    intro i hi
    have hi' : i < 512 := List.mem_range.mp hi
    rw [readKey]
    rw [show testSaved.mem = testHeaderCells ++ testCells 0x100940 (Config.splitByte 0 testGroup.num) 0 512 from rfl, test_sget_skip, test_sget_cells _ _ _ _ _ (by omega) (by omega)]
    intro x hx
    have : ∀ y ∈ testHeaderCells, y.1 < 0x100940 := by decide +kernel
    exact Nat.lt_of_lt_of_le (this x hx) (Nat.le_add_right _ _)
  have h : ∀ g ∈ groupsOf testSaved testSavedTeam, g.num = testGroup.num ∧ recordHead testSaved g = true := by decide +kernel
  have hz : ∀ k n, 0x100B40 ≤ k → readKeys testSaved k n = List.replicate n 0 := by
    intro k n hk
    unfold readKeys
    refine List.eq_replicate_iff.mpr ⟨by simp, fun b hb => ?_⟩
    obtain ⟨i, -, rfl⟩ := List.mem_map.mp hb
    have hc : ∀ x ∈ testSaved.mem, x.1 < k + i := by
      intro x hx
      rw [show testSaved.mem = testHeaderCells ++ testCells 0x100940 (Config.splitByte 0 testGroup.num) 0 512 from rfl] at hx
      rcases List.mem_append.mp hx with h | h
      · have : ∀ y ∈ testHeaderCells, y.1 < 0x100B40 := by decide +kernel
        exact Nat.lt_of_lt_of_le (this x h) (by omega)
      · obtain ⟨j, hj, rfl⟩ := List.mem_map.mp h
        have := (List.mem_range'_1.mp hj).2
        simp only
        omega
    have := test_sget_skip (k + i) testSaved.mem [] hc
    rw [List.append_nil] at this
    rw [readKey, this]
    rfl
  have hh : (List.range 16).all (handleOk testSaved (0x100900 + 0x380)) = true := by
    refine List.all_eq_true.mpr fun n _ => ?_
    rw [handleOk, hz _ _ (by omega)]
    decide +kernel
  intro g hg
  obtain ⟨hn, hr⟩ := h g hg
  have : recordOk testSaved 0x100900 testSavedTeam.saveTag g =
      (recordHead testSaved g && (readKeys testSaved 0x100940 512 == splitBlock 0 g.num) && (List.range 16).all (handleOk testSaved (0x100900 + 0x380))) := rfl
  rw [this, hr, hn, hb, hh]
  simp

/-! #### Fragments -/

theorem test_meets_PromotionAndFusion_1 : (testState testGroup).group? 3 = some testGroup ∧ testGroup.frag? 5 = some testFrag ∧
    couldIssue (testState testGroup) testGroup testFrag = true ∧ testFrag.held = false ∧ testFrag.promoted = none := by decide +kernel

/-- Two fragments of one split at its join. -/
def testJoined : Group :=
  { testGroup with
    frags := [{ testFrag with mask := 0xFFFF, split := 8, pc := 0x10014 }, { freshFrag 6 0xFFFF0000 0x10014 0 with split := 8 }]
    splits := [{ id := 8, join := 0x10014, parent := 0 }] }

theorem test_meets_PromotionAndFusion_2 :
    let sp : Split := { id := 8, join := 0x10014, parent := 0 }
    (testState testJoined).group? 3 = some testJoined ∧ testJoined.splits.find? (fun x => x.id == sp.id) = some sp ∧ canFuse testJoined sp = true ∧
      (testJoined.frags.filter fun f => f.split == sp.id && f.pc == sp.join) ≠ [] := by decide +kernel

/-- A load with its words, an atomic whose reply has come, an object call whose reply has come. -/
def testOut (k : OutKind) : Out := { testWindow with kind := k, landed := false, regs := [.v 8, .v 9], writes := [{ reg := .v 8, lane := 31, val := 1 }] }
def testLanding (k : OutKind) : Group := { testGroup with frags := [{ testFrag with outs := [testOut k] }] }

theorem test_meets_Landings : ∀ k ∈ [OutKind.load, .atom, .objcall], (testState (testLanding k)).group? 3 = some (testLanding k) ∧
    ((testLanding k).frag? 5).any (fun f => f.outs.find? (fun x => x.id == 1) == some (testOut k)) = true ∧ (testOut k).hasCome = true ∧
    (testOut k).trap = none ∧ (testOut k).replyTrap = none ∧ Regs.wf (testLanding k).v = true ∧ (∀ w ∈ (testOut k).words, w.lane < 32) ∧
    (testOut k).commit = [] := by decide +kernel

/-- A PADDC's result, with one byte of its commit to make. -/
theorem test_meets_Landings_commit :
    let o : Out := { testOut .compute with commit := [{ loc := .mem 0x8000, addr := 0x8000, bytes := [1], mask := [] }] }
    let g := { testGroup with frags := [{ testFrag with outs := [o] }] }
    (testState g).group? 3 = some g ∧ (g.frag? 5).any (fun f => f.outs.find? (fun x => x.id == 1) == some o) = true ∧ o.hasCome = true ∧ o.trap = none ∧
      o.replyTrap = none ∧ o.commit ≠ [] ∧ lostPiece (testState g) 0 o = none := by decide +kernel

/-- The same, of a byte in a word with an error, with an error log that takes nothing. -/
theorem test_meets_Landings_lost :
    let o : Out := { testOut .kept with commit := [{ loc := .mem 0x8000, addr := 0x8000, bytes := [1], mask := [] }] }
    let g := { testGroup with frags := [{ testFrag with outs := [o] }] }
    let s := { testState g with memErr := [0x800] }
    s.group? 3 = some g ∧ (g.frag? 5).any (fun f => f.outs.find? (fun x => x.id == 1) == some o) = true ∧ o.hasCome = true ∧ o.trap = none ∧
      o.replyTrap = none ∧ lostPiece s g.part o ≠ none ∧ g.role = .ordinary ∧ (∀ x ∈ g.frags, ∀ y ∈ x.outs, y.id ≠ o.id → y.landed = true) ∧
      (∀ x ∈ s.parts, ringSize x.errK ≤ ringUsed x.errProd x.errCons) := by decide +kernel

/-- The group with its fragment in a wait. -/
def testWaiting (w : Wait) : Group := { testGroup with frags := [{ testFrag with wait := some w }], batches := [(1, 0)], nextBatch := 2 }
def testWaitState (w : Wait) : State := testState (testWaiting w)

theorem test_meets_WaitEnds_1 : (testWaitState (.batch 1)).group? 3 = some (testWaiting (.batch 1)) ∧ (testWaiting (.batch 1)).ended = false ∧
    ((testWaitState (.batch 1)).coreOf (testWaiting (.batch 1))).isSome = true ∧ batchDone (testWaitState (.batch 1)) (testWaiting (.batch 1)) 1 = true ∧
    (let g := { testWaiting (.batch 1) with batches := [(1, 1)], cmds := 1 }
     let m : MatCmd := commandOf (testState g) g testFrag { px := none, d := 5, stats := false, tiles := [], handles := [], slot := none, accepts := fun _ _ => true } .mzero 0 0 0
     batchDone { testState g with mats := [{ core := 0, cmds := [{ m with index := 0 }] }] } g 1 = false) := by decide +kernel

/-- The barrier word 0: two arrivals make a phase, and one phase is complete. -/
def testBarrier : State := withSlice (testState testGroup)
where withSlice (s : State) : State := placeBytes s (.slice 2 0) [2, 0, 0, 0, 1, 0, 0, 0]

theorem test_meets_WaitEnds_barrier :
    let g := testWaiting (.phase 0 0)
    let s := placeBytes (testState g) (.slice 2 0) [2, 0, 0, 0, 1, 0, 0, 0]
    s.group? 3 = some g ∧ g.ended = false ∧ (s.coreOf g).isSome = true ∧ barPassed s g.team 0 0 = true := by decide +kernel

theorem test_meets_WaitEnds_2 : barPassed testBarrier 2 0 0 = true ∧ barPassed testBarrier 2 0 1 = false := by decide +kernel

theorem test_meets_WaitEnds_3 :
    let w : Wait := .watch (.mem (poolKey 0)) 0x8000 4 0 0 true false 0x10000
    (testWaitState w).group? 3 = some (testWaiting w) ∧ broken (testWaitState w) 0 (.mem (poolKey 0)) = false ∧
      relHolds 0 32 (natOfBytes (readLocs (testWaitState w) (nowView (testWaitState w) (testWaiting w)) (.mem (poolKey 0)) 4)) (0 % 2 ^ 32) = true := by
  decide +kernel

/-! #### Homes -/

def testHome (f : Home → Home) (flight : List Request) : State := { testState testGroup with homes := [f (newHome 0)], flight := flight }

theorem test_meets_HomeArrival :
    let s := testHome id [testRequest]
    (s.home? 0).isSome = true ∧ ((s.part? (partOfHome s 0)).any fun p => p.window != 0) = true ∧ homeFull s 0 = false ∧
      arrivals s 0 [testRequest.id] = [testRequest] ∧ testRequest.time = none ∧ testRequest.ask.isBind = false ∧
      ((s.home? 0).any fun h => h.bins.all fun b => decide (b.reqs.length + 1 < 32)) = true := by decide +kernel

/-- A home with a closed bin of one request, which another fragment's result awaits. -/
def testAsk (a : Ask) (op0 op1 : Word) : Request := { testRequest with ask := a, op0 := op0, op1 := op1 }
def testClosed (a : Ask) (op0 op1 : Word) (table : Option Dword) : State :=
  let out : Out := { testWindow with id := 30, kind := .atom, landed := false, interlock := true, regs := [.v 8, .v 9], awaits := [4] }
  { testState { testGroup with frags := [{ testFrag with outs := [out] }] } with
    homes := [{ newHome 0 with
      closed := [{ testBin with ask := a, reqs := [testAsk a op0 op1] }]
      bindings := [{ base := 0xB000, length := 64, table := table, rights := { part := 0, sys := false } }] }] }

theorem test_meets_BatchStarts :
    let s := withWords (testClosed (.method 2) 0 0 (some 0xC000)) 0xC000 ([0x30001] ++ List.replicate 19 0 ++ [0x10040])
    let b := { testBin with reqs := [testAsk (.method 2) 0 0] }
    (s.home? 0).isSome = true ∧ partWorks s (partOfHome s 0) = true ∧ ((s.home? 0).any fun h => h.batches.all fun y => y.sg != 3) = true ∧
      firstBin s 0 (fun y => isMethodBin y && !(isPoolBin s 0 y)) = some b ∧ b.ask = .method 2 ∧ b.reqs.length ≤ 32 ∧
      ((bindingOf s 0 b.obj).any fun x => x.table == some (0xC000 : Dword) &&
        (match methodEntry (takeBin s 0 b.num) (homeCtx 0 x.rights) 0xC000 2 with
          | .ok (s1, some _) => s1.home? 0 == (takeBin s 0 b.num).home? 0
          | _ => false)) = true := by decide +kernel

theorem test_meets_FastPath : ∀ t ∈ [(0 : BitVec 3), 1, 2, 3],
    let s := testClosed (.intrinsic 6 t) 1 0 none
    let r := testAsk (.intrinsic 6 t) 1 0
    let b := { testBin with ask := .intrinsic 6 t, reqs := [r] }
    firstBin s 0 (fun y => y.ask.isIntrinsic) = some b ∧ b.reqs = [r] ∧ r.ask = .intrinsic 6 t ∧
      broken s (partOfHome s 0) r.loc = false ∧ r.reply.isSome = true ∧ r.time = none ∧ memoryOk s := by decide +kernel

/-- An element of pool 0, before and after the first access has taken its value down. -/
theorem test_meets_FastPath_pooled : ∀ n ∈ [none, some 7],
    let r := { testAsk (.intrinsic 6 0) 1 0 with loc := .mem (poolKey 0), found := n }
    let b := { testBin with ask := .intrinsic 6 0, reqs := [r] }
    let s := (testClosed (.intrinsic 6 0) 1 0 none).modHome 0 fun h => { h with closed := [b] }
    firstBin s 0 (fun y => y.ask.isIntrinsic) = some b ∧ keyTier (poolKey 0) = 1 ∧ broken s (partOfHome s 0) r.loc = false ∧ r.reply.isSome = true ∧
      r.time = none ∧ memoryOk s ∧ poolBusy s 0 none (some b.num) = false ∧
      poolBusy (s.modHome 0 fun h => { h with found := some (99, []) }) 0 none (some b.num) = true := by decide +kernel

theorem test_meets_Binds :
    let s := testClosed (.bind 64 1 0) 0 0 none
    (s.home? 0).isSome = true ∧ (firstBin s 0 fun y => match y.ask with | .bind .. => true | _ => false) =
      some { testBin with ask := .bind 64 1 0, reqs := [testAsk (.bind 64 1 0) 0 0] } := by decide +kernel

/-- A bind of a method table at 0xC000, of a base that is not bound: what the checks of the table come to. -/
def testTable (w : Word) (good : Bool) : Bool :=
  let ask : Ask := .bind 64 0 0xC000
  let s0 := withWords (testClosed ask 0 0 none) 0xC000 [w]
  let s := s0.modHome 0 fun h => { h with bindings := [] }
  (s.home? 0).any (fun h => h.bindings.all (fun x => x.base != (testAsk ask 0 0).base) && decide (h.bindings.length < 4096) &&
    homeResume s 0 1 == .go && !(bindMalformed 64 0) &&
    match bindTable s (homeCtx 0 (testAsk ask 0 0).rights) (testAsk ask 0 0).base 0 0xC000 with
    | .ok (s1, b) => b == good && s1.home? 0 == some h && s1.groups == s.groups
    | _ => false)

/-- A table that is well formed. -/
theorem test_meets_Binds_table : testTable 0x30001 true = true := by decide +kernel

/-- A table that is not. -/
theorem test_meets_Binds_no_table : testTable 0 false = true := by decide +kernel

/-- A table at an address that no translation has, and a home whose wait on a page has failed. -/
theorem test_meets_Binds_fails :
    let ask : Ask := .bind 64 0 0xFFFFFFFFFFFFFFC0
    let s := testClosed ask 0 0 none
    bindMalformed 64 0 = false ∧ homeResume s 0 1 = .go ∧
      (match bindTable s (homeCtx 0 (testAsk ask 0 0).rights) 0xB000 0 0xFFFFFFFFFFFFFFC0 with | .error (_, .fail ..) => true | _ => false) = true ∧
      homeResume (s.modHome 0 fun h => { h with pauses := [(1, { open_ := [], failed := some 0xC000 })] }) 0 1 = .fail 0xC000 := by decide +kernel

/-- The same bind of a base that is bound already. -/
theorem test_meets_Binds_bound :
    let ask : Ask := .bind 64 0 0xC000
    let s := withWords (testClosed ask 0 0 none) 0xC000 [0x30001]
    (s.home? 0).any (fun h => h.bindings.any (fun x => x.base == (testAsk ask 0 0).base) && homeResume s 0 1 == .go &&
      match bindTable s (homeCtx 0 (testAsk ask 0 0).rights) (testAsk ask 0 0).base 0 0xC000 with
      | .ok (s1, true) => s1.home? 0 == some h
      | _ => false) = true := by decide +kernel

/-- A binding table of 4,096 entries of another base is full. -/
theorem test_meets_Binds_full : let l := List.replicate 4096 (0xB040 : Dword)
    (∀ x ∈ l, x ≠ (testAsk .unbind 0 0).base) ∧ 4096 ≤ l.length :=
  ⟨fun x hx => by rw [List.eq_of_mem_replicate hx]; decide, Nat.le_of_eq List.length_replicate.symm⟩

theorem test_meets_Binds_2 : bindMalformed 0 0 = true ∧ bindMalformed 64 1 = false ∧
    (let a : Ask := .unbind
     let s := testClosed a 0 0 none
     firstBin s 0 (fun y => y.ask == .unbind) = some { testBin with ask := a, reqs := [testAsk a 0 0] }) := by decide +kernel

/-- A pool of 16 blocks at 0xB000, its stack at 0xC000 and its counts at 0xD000, with `free` blocks free; block 5 has count `n`. -/
def testPool (m : BitVec 7) (op0 op1 : Word) (free n : Nat) : State :=
  withWords (withWords (withWords (testClosed (.method m) op0 op1 none) 0xB000
    [1, 64, 0x20000, 0, 16, BitVec.ofNat 32 free, 0xD000, 0, 0, 0, 0xC000, 0]) 0xC000 [5, 5, 5]) 0xD008 [BitVec.ofNat 32 (n * 65536)]

def testPoolBin (m : BitVec 7) (op0 op1 : Word) : Bin := { testBin with ask := .method m, reqs := [testAsk (.method m) op0 op1] }
def testPoolBinding : Binding := { base := 0xB000, length := 64, table := none, rights := { part := 0, sys := false } }
def testPoolCtx (m : BitVec 7) : EngCtx := poolCtx 0 testPoolBinding.rights (testPoolBin m 5 0).reqs

theorem test_meets_PoolMethods_turns : ∀ m ∈ [(0 : BitVec 7), 1, 2, 3], firstPool (testPool m 5 0 1 1) 0 = some (testPoolBin m 5 0) ∧
    bindingOf (testPool m 5 0 1 1) 0 0xB000 = some testPoolBinding ∧ homeResume (testPool m 5 0 1 1) 0 1 = .go ∧
    (match engRecord (testPool m 5 0 1 1) (testPoolCtx m) 0xB000 with
      | .ok (s1, bs) => (poolOf bs).any fun p => decide (0 < p.free) && decide (5 < p.count) &&
          (match engRead s1 (testPoolCtx m) ((p.stack + 4 * (p.free - 1) : Nat) : Int) 4 with | .ok (_, i) => decide (i < p.count) | _ => false) &&
          (match engRead s1 (testPoolCtx m) ((p.refs + 2 * 5 : Nat) : Int) 2 with | .ok (_, n) => n == 1 | _ => false)
      | _ => false) = true := by decide +kernel

theorem test_meets_PoolMethods_bounds :
    (match engRecord (testPool 0 5 0 0 2) (testPoolCtx 0) 0xB000 with
      | .ok (s1, bs) => (poolOf bs).any fun p => p.free == 0 &&
          (match engRead s1 (testPoolCtx 0) ((p.refs + 2 * 5 : Nat) : Int) 2 with | .ok (_, n) => decide (1 < n) && n != 65535 | _ => false)
      | _ => false) = true := by decide +kernel

/-- The counts of the pool in tier 1: SHARE has read them in an access of its own, or makes that access now (19 R436). -/
theorem test_meets_PoolMethods_pooled : ∀ y ∈ [(none, true), (some (1, []), false)],
    let s0 := placeBytes (withWords (withWords (testPool 1 5 0 1 1) 0xB018 [0x4000D000]) 0x3008 [0x1F, 0x04000000]) (.mem (poolKey 0xD000)) [1]
    let s := s0.modHome 0 fun h => { h with found := y.1 }
    (firstPool s 0).map Bin.num = some 1 ∧ poolBusy s 0 none (some 1) = false ∧ (match engRecord s (testPoolCtx 1) 0xB000 with
      | .ok (s1, bs) => (poolOf bs).any fun p => (match engRead s1 (testPoolCtx 1) ((p.refs + 2 * 5 : Nat) : Int) 2 with
          | .ok (s2, n) => n != 65535 && match engWrite s2 (testPoolCtx 1) ((p.refs + 2 * 5 : Nat) : Int) 2 (n + 1) with
            | .ok s3 => poolReads s3 0 == y.2
            | _ => false
          | _ => false)
      | _ => false) = true := by decide +kernel

/-- Another batch of the home is updating a pool: a service group's, or one on an element (19 R436). -/
theorem test_meets_PoolMethods_busy :
    let s := (placeBytes (withWords (withWords (testPool 1 5 0 1 1) 0xB018 [0x4000D000]) 0x3008 [0x1F, 0x04000000]) (.mem (poolKey 0xD000)) [1]).modHome 0 fun h =>
      { h with batches := [{ testBatch with sg := 0, found := some [], bin := { testBin with num := 9, reqs := [{ testAsk (.method 5) 0 0 with base := 0xF000 }] } }] }
    (firstPool s 0).map Bin.num = some 1 ∧ poolBusy s 0 none (some 1) = true ∧ poolBusy s 0 (some 0) (some 1) = false ∧
      (match poolRun (testPoolCtx 1) 1 (testPoolBin 1 5 0).reqs s with | .ok (s1, _) => poolReads s1 0 | _ => false) = true := by decide +kernel

/-! #### Engines -/

/-- A feed of one position of the record at 0x9000, to a stream (handle 0) or to a tile (handle 2). -/
def testFeed (h : Nat) (dest : Word) : Feed :=
  { seq := 1, group := 3, handle := h, record := 0x9000, dest := dest, row0 := 0, col0 := 0, h := 1, w := 1, tr := false, cm := false, wb := false, after := 0
    rights := { part := 0, sys := false }, team := 2, grid := 9, str := 0, quantum := 0 }

/-- Feeder 0 of core 0 with a feed at its head, begun or not. -/
def testFeeding (x : Feed) (running : Option Nat) (code : Word) : State :=
  let s := withWords (testState testGroup2) 0x9000 [code, 0, 0x10000, 0, 0, 0, 0, 0, 0x001F001F]
  modFifo (modFeeder s 0 0 fun q => { q with items := [.cmd x], running := running, shape := if running.isSome then readKeys s 0x9000 64 else [] }) 0 0
    fun f => { f with bound := some (3, 0) }

theorem test_meets_FeedStarts : ∀ y ∈ [(0, (0 : Word), (0x1421 : Word)), (2, 0x80000000, 0x0821)],
    let x := testFeed y.1 y.2.1
    let s := testFeeding x none y.2.2
    let s0 := modFeeder s 0 0 fun q => { q with pause := none }
    ((feeder? s 0 0).any fun q => q.items.head? == some (.cmd x) && q.pause == none && q.running == none && q.wire == [] && q.ahead == [] &&
      x.seq == nextNumber q.done && !x.failed) = true ∧ partWorks s x.rights.part = true ∧
      ((s.group? x.group).bind (fun g => g.handle? x.handle)).isSome = true ∧ feedWaits s 0 x = false ∧ feedOrphan s 0 x = false ∧
      atomicsBefore s x.group x.quantum = false ∧ (match feedRecord s0 (feedCtx s0 0 0 x) x with
        | .ok (s1, bs, ix) => shapeOk (parseShape bs) && (feeder? s1 0 0 == feeder? s 0 0) &&
            (x.isStream ||
              let s3 := modFeeder s1 0 0 fun q => q.keeps (parseShape bs).elem.isPlane
              match fillTile s3 (feedCtx s3 0 0 x) (parseShape bs) ix x {} with
              | .ok s2 => feeder? s2 0 0 == (feeder? s 0 0).map (Feeder.keeps · (parseShape bs).elem.isPlane)
              | _ => false)
        | _ => false) = true := by decide +kernel

/-- A fill that comes to a page that is not present, and one that goes on. -/
theorem test_meets_FeedStarts_page :
    let x := testFeed 2 0x80000000
    let s := withWords (testFeeding x none 0x0821) 0x9008 [0x40000000]
    let s0 := modFeeder s 0 0 fun q => { q with pause := none }
    (match feedRecord s0 (feedCtx s0 0 0 x) x with
      | .ok (s1, bs, ix) =>
        let s3 := modFeeder s1 0 0 fun q => q.keeps (parseShape bs).elem.isPlane
        (match fillTile s3 (feedCtx s3 0 0 x) (parseShape bs) ix x {} with
        | .error (s2, .page .., _) => feeder? s2 0 0 == (feeder? s 0 0).map (Feeder.keeps · (parseShape bs).elem.isPlane)
        | _ => false)
      | _ => false) = true := by decide +kernel

theorem test_meets_FeedStarts_goes_on :
    let x := testFeed 2 0x80000000
    let s := testFeeding x (some 0) 0x0821
    let s0 := modFeeder s 0 0 fun q => { q with pause := none }
    ((feeder? s 0 0).any fun q => q.running.isSome && q.shape != [] && q.wire == [] && q.ahead == [] &&
      match fillTile s0 (feedCtx s0 0 0 x) (parseShape q.shape) q.index x q.got with
      | .ok s2 => feeder? s2 0 0 == some { q with pause := none }
      | _ => false) = true := by decide +kernel

/-- A write-back of one position, from an f32 tile of one row and one column at the slice's start. -/
theorem test_meets_FeedStarts_back :
    let x := { testFeed 2 0x80000000 with wb := true }
    let s := placeBytes (placeBytes (testFeeding x none 0x0821) (.slice 2 0) [0, 0, 2, 0, 1, 0, 1, 0]) (.slice 2 128) [0, 0, 0x80, 0x3F]
    let s0 := modFeeder s 0 0 fun q => { q with pause := none }
    ((s.group? x.group).bind (fun g => g.handle? x.handle)).any (fun h =>
      feedWaits s 0 x == false && feedOrphan s 0 x == false && match feedRecord s0 (feedCtx s0 0 0 x) x with
      | .ok (s1, bs, ix) =>
        let e := feedCtx s1 0 0 x
        let r := parseShape bs
        let hd := readHead s1 e.view x.team (tileBase h)
        feeder? s1 0 0 == feeder? s 0 0 && tileFits s1 x.team (tileBase h) 16 && headOk hd h &&
          tileFits s1 x.team (tileBase h) (tileBytes r.elem (r.scale == 1) hd.rows hd.cols (headLabels hd r.rows)) &&
          match unitsOf r (backPositions r ix x) with
          | [[(i, (a, b))]] =>
            let v := tileCode s1 e.view x.team (tileBase h) hd r.elem (r.scale == 1) (headLabels hd r.rows) a b
            match writeUnit s1 e r [(i, some v.2, v.1)] with
            | .ok s2 => feeder? s2 0 0 == feeder? s 0 0
            | _ => false
          | _ => false
      | _ => false) = true := by decide +kernel

/-- A record that cannot be read. -/
theorem test_meets_FeedStarts_fails :
    let x := testFeed 0 0
    let s := testFeeding x none 0
    (match feedRecord s (feedCtx s 0 0 x) x with | .error (_, .fail _ _) => true | _ => false) = true := by decide +kernel

/-- The first tile of two. -/
def testTwoTiles : Feed := { testFeed 0 0 with h := 33 }
theorem test_meets_StreamTiles_1 :
    let x := testTwoTiles
    let s := testFeeding x (some 0) 0x1421
    let s0 := modFeeder s 0 0 fun y => { y with pause := none }
    ((feeder? s 0 0).any fun q => decide (0 + 1 < feedTotal q x) && x.isStream &&
      (match streamTile s0 (feedCtx s0 0 0 x) (parseShape q.shape) q.index x 0 q.got with
        | .ok (s1, _) => s1.feeders == s0.feeders && s1.fifos == s.fifos && s1.groups == s.groups
        | _ => false)) = true ∧
      ((fifo? s 0 (x.dest.extractLsb' 0 4).toNat).any fun f => f.bound == some (x.group, x.handle) && f.discard == 0 &&
        (feeder? s 0 0).any fun q => fifoRoom f (parseShape q.shape)) = true := by decide +kernel

/-- A stream tile without its data at the head of FIFO 0, whose consumer has a relation that rejects it all, or admits it. -/
def testDeferred (relation : BitVec 128) : State :=
  let s := testFeeding testTwoTiles (some 1) 0x1421
  let n : MatNeeds := { px := none, d := 5, stats := false, tiles := [], handles := [], slot := none, accepts := fun _ _ => true }
  let m : MatCmd := { commandOf s testGroup2 testFrag n .mma 0 1 0 with rel := some relation, slot := 0 }
  let tile : StreamTile := { format := 0x05, scale := 0, labels := some (List.replicate 32 0), rows := true, data := none, failure := none, index := 0 }
  let two : StreamTile := { tile with data := some [] }
  modFifo (modFifo { s with mats := [{ core := 0, cmds := [m] }] } 0 0 fun f => { f with tiles := [tile] }) 0 3 fun f => { f with bound := some (3, 1), tiles := [two] }

theorem test_meets_StreamTiles_2 :
    let s := testDeferred 0
    ((fifo? s 0 0).any fun f => f.pause == none && f.tiles != [] && (deferredNeed s f == some false || deferredNeed s f == some true)) = true ∧
      partWorks s (partOfCore s 0) = true ∧ (feederOfFifo s 0 0).isSome = true := by decide +kernel

/-- A copy command word by word (10 R263): kind, flags, source and destination records, window of 1 × 1, no completion word. -/
def testCopyBytes (kind : Nat) : List Byte :=
  ([1 + kind * 65536, 0, if kind = 7 then 0 else 0x9000, 0, 0x9040, 0, 0, 0, 0, 0, 1, 1, 0, 0, 0, 0].map (BitVec.ofNat 32)).flatMap bytesOfWord
def testCopyState (bytes : List Byte) (coll sys : Bool) (src dst : Word) : State :=
  let s := withWords (withWords (withWords (testState testGroup2) 0xE000 [32]) 0xE800 [32]) 0x9000 [src, 0, 0xE000, 0, 0, 0, 0, 0, 0x001F001F, 0, 0, 0, 0, 0, 0, 0, dst, 0, 0xE800, 0, 0, 0, 0, 0, 0x001F001F]
  modCopyQ s 0 0 fun q => { q with items := [.cmd { seq := 1, bytes := bytes, coll := coll, rights := { part := 0, sys := sys }, group := some 3, grid := some 9
                                                    str := 0, quantum := 0 }] }

/-- FILL, and COPY, of one position: its one unit is performed. -/
theorem test_meets_CopyCommands : ∀ kind ∈ [7, 1],
    let s := testCopyState (testCopyBytes kind) false false 0x0821 0x0821
    ((copyQ? s 0 0).any fun x => x.pause == none && x.running == none && x.wire == [] && match x.items.head? with
      | some (.cmd c) =>
        let w := parseCopy c.bytes
        let s0 := modCopyQ s 0 0 CopyQueue.resumed
        !c.coll && w.kind == kind && w.ok && match copyRecords s0 (copyCtx s0 0 0 c) w with
        | .ok (s1, sb, db, ai, bi) =>
          let a := parseShape sb
          let b := parseShape db
          let s1 := modCopyQ s1 0 0 fun y => y.keeps (kind != 7 && a.elem.isPlane)
          let e := copyCtx s1 0 0 c
          !(x.heldBack s c) && !b.byPosition && match copyParts b (copyPositions w a b ai bi) with
          | [u] =>
            if kind = 7 then (match writeUnit s1 e b (u.1.map fun y => (y.1, none, b.padRead)) with | .ok _ => true | _ => false)
            else match readMany e a ai (u.1.map Prod.snd) s1 with
              | .ok (s2, vs) => (match writeUnit s2 e b (List.zip (u.1.map Prod.fst) (unitCodes w a b vs)) with | .ok _ => true | _ => false)
              | _ => false
          | _ => false
        | _ => false
      | _ => false) = true ∧ partWorks s 0 = true := by decide +kernel

/-- SCATRED to an indexed record: its one position is combined. -/
theorem test_meets_CopyCommands_scatred :
    let s := testCopyState (testCopyBytes 4) false false 0x0821 0x1008A1
    ((copyQ? s 0 0).any fun x => match x.items.head? with
      | some (.cmd c) =>
        let w := parseCopy c.bytes
        let s0 := modCopyQ s 0 0 CopyQueue.resumed
        match copyRecords s0 (copyCtx s0 0 0 c) w with
        | .ok (s1, sb, db, ai, bi) =>
          let a := parseShape sb
          let b := parseShape db
          let s1 := modCopyQ s1 0 0 fun y => y.keeps a.elem.isPlane
          let e := copyCtx s1 0 0 c
          !b.byPosition && match copyParts b (copyPositions w a b ai bi) with
          | [u] => (match u.1, readMany e a ai (u.1.map Prod.snd) s1 with
            | [(i, _)], .ok (s2, [_]) => match elemAddr s2 e b i with
              | .ok (s3, addr, _) => (match engLoc s3 e .update addr (b.elem.bits / 8) with | .ok _ => true | _ => false)
              | _ => false
            | _, _ => false)
          | _ => false
        | _ => false
      | _ => false) = true := by decide +kernel

/-- A FILL of two positions, of which the first is done: its second unit is performed. -/
theorem test_meets_CopyCommands_goes_on :
    let bytes : List Byte := ([1 + 7 * 65536, 0, 0, 0, 0x9040, 0, 0, 0, 0, 0, 1, 2, 0, 0, 0, 0].map (BitVec.ofNat 32)).flatMap bytesOfWord
    let s1 := testCopyState bytes false false 0x0821 0x0821
    let s := modCopyQ s1 0 0 fun q => { q with running := some 1, dst := readKeys s1 0x9040 64 }
    ((copyQ? s 0 0).any fun x => x.dst != [] && x.running == some 1 && x.pause == none && match x.items.head? with
      | some (.cmd c) =>
        let w := parseCopy c.bytes
        let b := parseShape x.dst
        let us := copyParts b (copyPositions w (parseShape x.src) b x.srcIdx x.dstIdx)
        w.kind == 7 && w.ok && us.length == 2 && unitsToBoundary b.elem.bits (bitsOfUnits b (us.take 1)) (us.drop 1) == 1 && match us with
        | [_, u] => (match writeUnit (modCopyQ s 0 0 CopyQueue.resumed) (copyCtx s 0 0 c) b (u.1.map fun y => (y.1, none, b.padRead)) with
          | .ok _ => true
          | _ => false)
        | _ => false
      | _ => false) = true := by decide +kernel

/-- SCATRED to a record in tier 1: the first access of its element is still to be made. -/
theorem test_meets_CopyCommands_pooled :
    let s1 := withWords (withWords (testCopyState (testCopyBytes 4) false false 0x0821 0x1008A1) 0x9048 [0x40000000]) 0x3008 [0x1F, 0x04000000]
    let s := modCopyQ s1 0 0 fun q => { q with running := some 0, src := readKeys s1 0x9000 64, dst := readKeys s1 0x9040 64, dstIdx := [(0, some 0)] }
    ((copyQ? s 0 0).any fun x => x.found == none && match x.items.head? with
      | some (.cmd c) =>
        let w := parseCopy c.bytes
        let s0 := modCopyQ s 0 0 CopyQueue.resumed
        let e := copyCtx s0 0 0 c
        let b := parseShape x.dst
        (match (copyParts b (copyPositions w (parseShape x.src) b x.srcIdx x.dstIdx))[0]? with
        | some ([(i, j)], _) => (match readPos s0 e (parseShape x.src) x.srcIdx j.1 j.2 with
          | .ok (s2, _) => (match elemAddr s2 e b i with
            | .ok (s3, addr, _) => (match engLoc s3 e .update addr (b.elem.bits / 8) with | .ok (_, l) => l.pooled | _ => false)
            | _ => false)
          | _ => false)
        | _ => false)
      | _ => false) = true := by decide +kernel

/-- MIGRATE between two pages of tier 0, with the right and without it. -/
def testMigrate : List Byte :=
  ([1 + 9 * 65536, 0, 0x10000, 0, 0x20000, 0, 0, 0, 1, 0, 0, 0, 0, 0, 0, 0].map (BitVec.ofNat 32)).flatMap bytesOfWord

theorem test_meets_CopyCompletes : ∀ y ∈ [(true, none), (false, none), (true, some 0)],
    let sys := y.1
    let s := modCopyQ (testCopyState testMigrate false sys 0 0) 0 0 fun q => { q with running := y.2 }
    ((copyQ? s 0 0).any fun x => x.pause == none && x.running == y.2 && x.ahead == [] && match x.items.head? with | some (.cmd c) => !(copyCtx s 0 0 c).eph && c.seq == nextNumber x.done | _ => false) = true ∧
    ((copyQ? s 0 0).any fun x => match x.items.head? with
      | some (.cmd c) => !c.coll && (parseCopy c.bytes).kind == 9 && (parseCopy c.bytes).ok && c.rights.sys == sys && (parseCopy c.bytes).complete == 0 &&
          (parseCopy c.bytes).drow == 1 && (parseCopy c.bytes).srow == 0 && (parseCopy c.bytes).scol == 0
      | _ => false) = true ∧ partWorks s 0 = true ∧ s.memErr = [] ∧ reachable s 0 (.mem 0x10000) = true ∧ reachable s 0 (.mem 0x20000) = true ∧ memoryOk s := by
  decide +kernel

/-- A matrix command at the head of core 0's queue, of one tile, with the tiles that it consumes. -/
def testMatrix (k : MatKind) : MatCmd :=
  let n : MatNeeds := { px := none, d := 5, stats := false, tiles := [], handles := [], slot := none, accepts := fun _ _ => true }
  let tile : StreamTile := { format := 0x05, scale := 0, labels := none, rows := true, data := some [], failure := none, index := 0 }
  { commandOf (testState testGroup2) testGroup2 testFrag n k 0 1 0 with slot := 0x05, aTiles := [tile], bTiles := [tile] }
def testMatrixState (k : MatKind) : State := { testState testGroup2 with mats := [{ core := 0, cmds := [testMatrix k] }] }

theorem test_meets_MatrixEngine : ∀ k ∈ [MatKind.mzero, .mlda, .mnorm, .mma, .mmas, .mmap, .msta, .mtr],
    let s := testMatrixState k
    let c := testMatrix k
    s.group? 3 = some testGroup2 ∧ nextCmd s 0 3 = some c ∧ c.group = 3 ∧ cmd? s c.id = some c ∧ partWorks s (partOfCore s 0) = true ∧ c.joint = none ∧
      beginsNext s 0 c = true ∧ c.latched = false ∧ fillsDone s 0 c = true ∧ c.failed = none ∧ c.tilesA ≤ c.aTiles.length ∧ c.tilesB ≤ c.bTiles.length ∧
      c.kind = k ∧ cwM c.word ≤ 128 ∧ cwN c.word ≤ 128 ∧ cwType c.word = 0 ∧ cwK c.word % 32 = 0 ∧ Regs.wf testGroup2.acc = true := by decide +kernel

/-- An MMA with a relation, which the engine has begun. -/
theorem test_meets_MatrixEngine_rel :
    let c := { testMatrix .mma with rel := some 0, started := true }
    let s := { testMatrixState .mma with mats := [{ core := 0, cmds := [c] }] }
    nextCmd s 0 3 = some c ∧ cmd? s c.id = some c ∧ c.started = true ∧ c.joint = none ∧ c.failed = none := by decide +kernel

/-- A joint MMA of two groups of a team: member 0 has the tiles of A. -/
def testJointCmd (i id gid : Nat) : MatCmd :=
  let c := testMatrix .mma
  { c with id := id, group := gid, joint := some (0, [(0, 0), (0, 1)], i), started := true, aTiles := if i = 0 then c.aTiles else [] }
def testJoint : State :=
  { testState testGroup2 with
    groups := [testGroup2, { testGroup2 with id := 4, num := 1 }], mats := [{ core := 0, cmds := [testJointCmd 0 60 3, testJointCmd 1 61 4] }] }

theorem test_meets_MatrixEngine_joint : JointTurn testJoint 0 testGroup2 (testJointCmd 0 60 3) ∧
    ∀ m ∈ jointMembers testJoint (testJointCmd 0 60 3), cwM m.word ≤ 128 ∧ cwN m.word ≤ 128 ∧ Regs.wf testGroup2.acc = true :=
  ⟨by constructor <;> decide +kernel, by decide +kernel⟩

theorem test_meets_MatrixStores : SliceOpen (testMatrixState .msta) testGroup2 ∧
    (match biasOf (testMatrixState .mtr) (testMatrix .mtr) testGroup2 with | .ok _ => true | _ => false) = true ∧
    (testGroup2.handle? (testMatrix .mtr).ha).isSome = true :=
  ⟨⟨testTeam, by decide +kernel, by decide, by decide +kernel⟩, by decide +kernel, by decide +kernel⟩

theorem test_meets_RendezvousFails :
    let l : Latch := { members := [3, 4], j := 0, arrived := [{ testMatrix .mma with joint := some (0, [(0, 0)], 0), latched := true }], failed := false }
    let s := { testMatrixState .mma with latches := [l] }
    s.latches.find? (fun y => !y.failed && y.arrived.any fun c => c.group == 3) = some l ∧ partWorks s (((s.group? 3).map Group.part).getD 0) = true := by
  decide +kernel

/-! #### Ephemeris mode -/

/-- An Ephemeris grid of one team with its phase not yet running, or running and at its end with one byte written. -/
def testEphemeris (running : Bool) : Grid :=
  { testGrid with record := { testRecord with kind := 8, quantum := 256 }, phase := some { width := 1, num := 0, running := running }, next := if running then 1 else 0 }

/-- A choice among some is one of them, whatever the free value. -/
theorem test_pick (s : State) (l : List Nat) (h : l ≠ []) : (pickOne s l).isSome = true := by
  have hl : 0 < l.length := List.length_pos_iff.mpr h
  have hm : Config.placeChoice s.free % Nat.max 1 l.length < l.length := by
    have : Nat.max 1 l.length = l.length := Nat.max_eq_right hl
    rw [this]; exact Nat.mod_lt _ hl
  simp [pickOne, hm]

def testPhases : State := { testState testGroup with grids := [testEphemeris false], groups := [], teams := [] }

/-- The grid's phase fits: some core takes its one team, whichever the free value picks. -/
theorem test_phaseFits (x : Part) (h : ((partCores x).filter fun c => coreTakesNew testPhases c testRecord 1) ≠ []) :
    gridFits testPhases x (testEphemeris false) = true := by
  have h1 := test_pick testPhases _ h
  have h2 : (placeAny testPhases (partCores x) (testEphemeris false) 0 1 0).isSome = true := by
    unfold placeAny
    split
    · next hn => exact absurd (hn ▸ h1 : (none : Option Nat).isSome = true) (by decide)
    · rfl
  have hg : testPhases.grid? 9 = some (testEphemeris false) := by decide +kernel
  have h3 : nextPhase testPhases x (testEphemeris false) = (placeAny testPhases (partCores x) (testEphemeris false) 0 1 0).bind some := by
    show placePhase x 9 1 1 testPhases = _
    rw [placePhase, hg]
    rfl
  show (true && (nextPhase testPhases x (testEphemeris false)).isSome) = true
  rw [h3]; simpa using h2

theorem test_meets_Phases_1 : testPhases.grid? 9 = some (testEphemeris false) ∧ ∃ x, testPhases.part? 0 = some x ∧ placesNext testPhases x (testEphemeris false) = true := by
  refine ⟨by decide +kernel, ?_⟩
  have h : (testPhases.part? 0).isSome = true ∧ ∀ x ∈ testPhases.parts, x.id = 0 → ((partCores x).filter fun c => coreTakesNew testPhases c testRecord 1) ≠ [] ∧
      (placing x && (firstRelaunch testPhases x).isNone && (pendingGrids testPhases x).any (fun y => y.id == 9) &&
        (pendingGrids testPhases x).all fun y => y.id == 9) = true := by decide +kernel
  obtain ⟨x, hx⟩ := Option.isSome_iff_exists.mp h.1
  refine ⟨x, hx, ?_⟩
  have hf : testPhases.parts.find? (fun y => y.id == 0) = some x := hx
  have hm := List.mem_of_find?_eq_some hf
  have hid : x.id = 0 := by simpa using List.find?_some hf
  obtain ⟨hc, hr⟩ := h.2 x hm hid
  simp only [placesNext, test_phaseFits x hc]
  simp only [Bool.and_eq_true, List.any_eq_true, List.all_eq_true, beq_iff_eq] at hr
  obtain ⟨⟨⟨hp, hn⟩, y, hy, hid9⟩, hall⟩ := hr
  have e9 : (testEphemeris false).id = 9 := rfl
  simp only [hp, hn, e9, Bool.true_and, Bool.and_true, Bool.and_eq_true, List.any_eq_true, Bool.not_eq_true', List.any_eq_false, beq_iff_eq]
  exact ⟨⟨y, hy, hid9⟩, fun z hz => by simp [hall z hz]⟩

theorem test_meets_Phases_2 :
    let w : PhaseWrite := { quantum := 0, gid := 0, key := 0x8000, val := 7 }
    let s := { testState { testGroup with exited := true, frags := [] } with grids := [testEphemeris true], teams := [{ testTeam with writes := [w, { w with key := 0x8010, atomic := true }] }] }
    s.grid? 9 = some (testEphemeris true) ∧ phaseGroups s 9 = [] ∧ gridWorking s 9 = false ∧ memoryOk s ∧
      conflicts ((s.teams.filter fun y => y.grid == 9).flatMap tableOf) = false ∧
      (∀ x ∈ s.parts, ∀ l ∈ x.launch, ∀ r ∈ l.items, r.reserved = false) := by decide +kernel

/-- A group at the end of its quantum. -/
def testQuantum (held : List Effect) (ended : Bool) (w : Option Wait) : Group :=
  { testGroup with logical := some { quantum := 0, start := 0, retired := 256, held := held, ended := ended, endPc := 0x10000, endFrag := 5 }
                   frags := [{ testFrag with wait := w }] }
def testQuantumState (g : Group) : State := { testState g with grids := [testEphemeris true] }

theorem test_meets_LogicalTime_1 : ∀ held ∈ [[], [Effect.store [{ loc := .mem 0x8000, addr := 0x8000, bytes := [1], mask := [] }] 0 0x10000 0xFFFFFFFF]],
    let g := testQuantum held true none
    let s := testQuantumState g
    s.group? 3 = some g ∧ g.logical.isSome = true ∧ s.gridOf g = some (testEphemeris true) ∧ canRelease s g = true ∧ g.frags ≠ [] ∧ firstOverflow s 9 held = none ∧
      (match releaseHeld 3 0 held s with | (s1, []) => (s1.group? 3).any (fun g1 => g1.logical.isSome && g1.frags != []) | _ => false) = true := by decide +kernel

theorem test_meets_LogicalTime_2 :
    let g := testQuantum [] false (some (.watch (.mem 0x8000) 0x8000 4 1 0 false false 0x10000))
    let s := testQuantumState g
    phaseGroups s 9 = [g] ∧ s.gridOf g = some (testEphemeris true) ∧ deadlocked s 9 = true ∧
      (lowestFrag (g.frags.filter fun x => x.wait.isSome)).any (fun f => f.id == 5) = true ∧ g.trapWait = none ∧ (testEphemeris true).record.vector ≠ 0 := by
  decide +kernel

theorem test_meets_LogicalTime_3 :
    let r := { testRequest with time := some (0, 0) }
    let s := { testQuantumState { testGroup with exited := true } with homes := [{ newHome 0 with queue := [r] }] }
    ((s.home? 0).any fun h => h.queue == [r] && h.bins == []) = true ∧ r.grid = some 9 ∧ allReleased s 9 0 = true ∧ s.flight = [] ∧
      (∀ x ∈ openRequests s, x.grid = some 9 → x.time.isSome = true → x.timeLt r = false) := by decide +kernel

/-- Two requests of one time and one object, which make a batch; and one still on its way, for which a home that serves a batch has no entry. -/
theorem test_meets_LogicalTime_4 : ∀ y ∈ [(0, true), (4096, false)],
    let r := { testRequest with time := some (0, 0) }
    let late := { r with id := 61, lane := 5 }
    let s := { testQuantumState { testGroup with exited := true } with
      flight := [late], homes := [{ newHome 0 with queue := [r], closed := List.replicate y.1 testBin }] }
    ((s.home? 0).any fun h => cutBatch (dueRequests s h) == [r, late] && takesBatch s h [r, late] == y.2) = true := by decide +kernel

/-! #### The fabric, the host, snapshots -/

def testPort (f : Port → Port) : State :=
  { testState testGroup with dev := { Device.reset with stage := 4, ports := Device.reset.ports.map fun q => if q.num = 63 then f { q with owner := some 0 } else q } }

theorem test_meets_Flits : (upPort (testPort fun q => { q with up := true }) 63).any (fun q => q.expect == [0, 0, 0, 0] && q.expect.length == 4 && q.early == []) = true ∧
    (0 : BitVec 12) ≠ 2047 ∧ ((2047 : BitVec 12) - 0).toNat < 2048 ∧ 2048 ≤ ((2048 : BitVec 12) - 0).toNat := by decide +kernel

/-- A flit sent six times, and one sent seven times. -/
theorem test_meets_OutsideAccesses_1 : ∀ n ∈ [6, 7],
    let s := testPort fun q => { q with up := true, unacked := [(0, 0, n)] }
    (upPort s 63).any (fun q => findBy Port.num s.dev.ports 63 == some q && q.unacked.find? (fun y => decide (0 < y.2.2)) == some (0, 0, n)) = true := by
  decide +kernel

theorem test_meets_OutsideAccesses_2 : (findBy Port.num (testPort id).dev.ports 63).any (fun q => !q.up) = true ∧ (testPort id).dev.powered = true ∧
    0x0100 ≤ (0x0100 : BitVec 16).toNat ∧ (0x00FF : BitVec 16).toNat < 0x0100 ∧ (testPort id).dev.poolDown.contains 1 = false := by decide +kernel

/-- A store and an atomic of another device that an export range just admits, and one that it just does not. -/
def testRemote (addr : Dword) (op : RemoteOp) : State :=
  (testPort fun q => { q with up := true, rx := [{ device := 5, isVirtual := false, addr := addr, op := op, requester := 0, lane := 0 }] }).modPart 0 fun p =>
    { p with exports := [{ num := 0, base := 0x8000, length := 64, lo := 5, hi := 5 }] }

/-- A partition that owns every quarter owns all of tier 0. -/
theorem test_owns (p : Part) (h : p.quarters = List.range 16) (k n : Nat) (hb : k + n ≤ Config.tier0Bytes) : ownsRange p k n = true := by
  simp only [ownsRange, h, Bool.and_eq_true, decide_eq_true_eq, List.all_eq_true]
  refine ⟨hb, fun i _ => ?_⟩
  simp [Config.quarter, Nat.mod_lt]

theorem test_admits (s : State) (p : Part) (hs : s.parts = [p]) (h : p.quarters = List.range 16) (r : RemoteRequest) (a : Nat) (ha : remoteAddress p r = some a)
    (hb : a + remoteBytes r.op ≤ Config.tier0Bytes) : (admitted? s r).isSome = admitsRange p r.device.toNat a (remoteBytes r.op) := by
  simp only [admitted?, hs, List.findSome?_cons, List.findSome?_nil, ha, test_owns p h a _ hb, Bool.true_and]
  cases admitsRange p r.device.toNat a (remoteBytes r.op) <;> rfl

theorem test_meets_OutsideAccesses_3 : ∀ y ∈ [((0x803C : Dword), RemoteOp.store [1, 2, 3, 4], true), (0x8040, .store [1, 2, 3, 4], false), (0x8000, .load 4, true),
      (0x803C, .atomic 0 1 1 0, true)],
    let s := testRemote y.1 y.2.1
    ∃ q r, findBy Port.num s.dev.ports 63 = some q ∧ q.rx = [r] ∧ (admitted? s r).isSome = y.2.2 ∧ r.op = y.2.1 ∧ memoryOk s ∧ s.memErr = [] := by
  have h : ∀ y ∈ [((0x803C : Dword), RemoteOp.store [1, 2, 3, 4], true), (0x8040, .store [1, 2, 3, 4], false), (0x8000, .load 4, true),
      (0x803C, .atomic 0 1 1 0, true)],
      let s := testRemote y.1 y.2.1
      (∃ q ∈ s.dev.ports, findBy Port.num s.dev.ports 63 = some q ∧
        q.rx = [{ device := 5, isVirtual := false, addr := y.1, op := y.2.1, requester := 0, lane := 0 }]) ∧ memoryOk s ∧ s.memErr = [] ∧
      (∃ p ∈ s.parts, s.parts = [p] ∧ p.quarters = List.range 16 ∧ admitsRange p 5 y.1.toNat (remoteBytes y.2.1) = y.2.2) ∧
      y.1.toNat + remoteBytes y.2.1 ≤ Config.tier0Bytes := by decide +kernel
  intro y hy
  obtain ⟨⟨q, _, hq, hr⟩, hm, he, ⟨p, _, hp, hl, ha⟩, hb⟩ := h y hy
  exact ⟨q, _, hq, hr, by rw [test_admits _ p hp hl _ _ rfl hb]; exact ha, rfl, hm, he⟩

/-- The last 64 bytes of tier 0, and the first address beyond it. -/
theorem test_meets_OutsideAccesses_4 : ∃ x, (testState testGroup).part? 0 = some x ∧ ownsRange x 0xBFFFFFFFC0 64 = true ∧ ownsRange x 0xC000000000 64 = false ∧
    ownsRange x 0xC000000000 1 = false := by
  have h : ∃ x ∈ (testState testGroup).parts, (testState testGroup).part? 0 = some x ∧ x.quarters = List.range 16 := by decide +kernel
  obtain ⟨x, _, hx, hq⟩ := h
  exact ⟨x, hx, test_owns x hq _ _ (by decide), rfl, rfl⟩

/-- A host access through a decoder that the host has just written, and through one of the other port. -/
theorem test_meets_OutsideAccesses_5 :
    let d : HdmDecoder := { port := 1, num := 7, part := 0, base := 0x1000, size := 64, start := 0xBFFFFFFFC0 }
    let hit := fun (port : Nat) (d : HdmDecoder) => d.port == port && d.part == 0 && decide (d.base ≤ 0x1000) && decide (0x1000 + 64 ≤ d.base + d.size)
    (setDecoders [] 1 [d]).find? (hit 1) = some d ∧ ((setDecoders [d] 0 [d]).any (hit 0)) = false ∧ 1 < 2 ∧ d.num < 8 ∧
      d.start + (0x1000 - d.base) = 0xBFFFFFFFC0 := by decide

/-- A collective command of two members, each kind, whose table at 0xA000 names this device first. -/
def testCollBytes (kind flags : Nat) (self : Nat := 0) : List Byte :=
  ([1 + kind * 65536 + flags * 16777216, 2 + self * 65536, 0xA000, 0, 0x10000, 0, 0x11000, 0, 64, 0, 0, 0, 0, 0, 0, 0].map (BitVec.ofNat 32)).flatMap bytesOfWord
def testMember (kind flags : Byte) (data : List Byte) : Member := { id := 0, group := [7, 9], index := 1, kind := kind, flags := flags, count := 2, block := 64, root := 0, data := data }
def testColl (kind flags : Nat) (self : Nat := 0) : State :=
  let s := withWords (testCopyState (testCollBytes kind flags self) true false 0 0) 0xA000 [0x00090007]
  { s with dev := { s.dev with fabricId := 7, ports := s.dev.ports.map fun q => if q.num = 0 then { q with up := true, owner := some 0 } else q } }

/-- The data of a member leaves by the one port that partition 0 has, whichever the free value picks. -/
def testSend (s : State) (n : Nat) : State :=
  match s.dev.ports.filter fun x => x.up && x.owner == some 0 with
  | [x] => (List.range ((n + 127) / 128)).foldl (fun s _ =>
      match s.dev.ports.find? fun y => y.num == x.num with
      | none => s
      | some y => modCopyQ (queueFlit s y 2) 0 0 fun z => { z with data := z.data ++ [(y.num, laneSeq y.nextSeq 2)] }) { s with free := s.free + 1 }
  | _ => sendColl s 0 0 n

theorem test_send : (fun s n => sendColl s 0 0 n) = testSend := by
  funext s n
  unfold testSend
  split
  · next x h =>
    have : ([x] : List Port)[Config.collectivePort s.free % Nat.max 1 1]? = some x := by simp [Nat.mod_one]
    simp only [sendColl, h, List.length_singleton, this] <;> rfl
  · rfl

/-- Whether the hypotheses hold of a collective in a state, and whether its data waits for an acknowledgement, with what sends the data. -/
def testCollMeets (s : State) (send : State → Nat → State) (kind : Nat) (others : List Member) (agree data : Bool) : Bool :=
  match headColl s 0 0 with
  | some (c, x) =>
    let w := parseColl c.bytes
    let e := copyCtx s 0 0 c
    x.pause == none && x.running == none && w.kind == kind && collOk s w && match checkBuffer e false w.send (bufferPieces w.send w.sendRange) s with
    | .ok s1 => (match checkBuffer e true w.recv (bufferPieces w.recv w.recvBytes) s1 with
      | .ok s2 =>
        let ms := sameColl s2 w others
        let s3 := modCopyQ s2 0 0 CopyQueue.resumed
        hasPort s2 0 && membersThere w ms && (membersAgree w ms == agree) && (!agree || membersCome w ms &&
          match readBuffer (copyCtx s3 0 0 c) w.send (bufferPieces w.send w.sendBytes) s3 with
          | .ok (s4, mine) =>
            let vs := (List.range w.count).map fun i => if i = w.self then mine else ((ms.find? fun m => m.index == i).map Member.data).getD []
            let r := writeBuffer (copyCtx s3 0 0 c) w.recv (collResult w vs) (bufferPieces w.recv w.recvBytes) 0 (send s4 mine.length)
            r.2.2 == none && (copyQ? r.1 0 0).any fun x5 => !x5.data.isEmpty == data
          | _ => false)
      | _ => false)
    | _ => false
  | none => false

theorem test_meets_Collectives : ∀ y ∈ [(1, 0, (1 : Byte), (0 : Byte), 64), (2, 2, 2, 2, 128), (3, 2, 3, 2, 64), (4, 0, 4, 0, 0)],
    testCollMeets (testColl y.1 y.2.1) (fun s n => sendColl s 0 0 n) y.1 [testMember y.2.2.1 y.2.2.2.1 (List.replicate y.2.2.2.2 1)] true true = true := by
  rw [test_send]; decide +kernel

/-- A broadcast's member that is not its root sends nothing. -/
theorem test_meets_Collectives_leaf : testCollMeets (withWords (testColl 4 0 1) 0xA000 [0x00070009]) (fun s n => sendColl s 0 0 n) 4
    [{ testMember 4 0 (List.replicate 64 1) with group := [9, 7], index := 0 }] true false = true := by
  rw [test_send]; decide +kernel

/-- A member of another kind. -/
theorem test_meets_Collectives_disagree : testCollMeets (testColl 1 0) testSend 1 [testMember 3 0 []] false false = true := by decide +kernel

/-- A send buffer beyond tier 0 by its page, and no port at all. -/
theorem test_meets_Collectives_checks :
    let e := homeCtx 0 { part := 0, sys := false }
    (match checkBuffer e false 0xFFFFFFFFFFFFFFC0 (bufferPieces 0xFFFFFFFFFFFFFFC0 64) (testColl 1 0) with | .error (_, .fail ..) => true | _ => false) = true ∧
      hasPort (testCopyState (testCollBytes 1 0) true false 0 0) 0 = false := by decide +kernel

theorem test_meets_Collectives_malformed : (match headColl (testColl 5 0) 0 0 with | some (c, _) => !(collOk (testColl 5 0) (parseColl c.bytes)) | none => false) = true := by
  decide +kernel

def testSnap (f : SnapWindow → SnapWindow) (h : SnapWindow → SnapWindow) : State :=
  let s := testState testGroup
  { s.modPart 0 fun p => { p with snap := h p.snap } with dev := { s.dev with snap := f s.dev.snap } }

theorem test_meets_Snapshots :
    let s0 := testSnap id id
    ({ s0 with dev := { s0.dev with stage := 4 } }).dev.powered = true ∧ s0.dev.snap.held = false ∧ (∀ y ∈ s0.parts, y.snap.held = false ∧ y.snap.pending = false) ∧
    s0.dev.snap.pending = false ∧ (∀ y ∈ s0.parts, y.id = 0 → s0.part? 0 = some y) ∧
    (let s := testSnap (fun w => { w with held := true, pending := true, since := s0.clock, missed := 0xFFFFFFFE }) id
     s.dev.snap.held = true ∧ s.dev.snap.pending = true ∧ s.dev.snap.since = s.clock ∧ s.dev.snap.missed ≠ 0xFFFFFFFF ∧
       ∀ y ∈ s.parts, y.snap.held = false ∧ y.snap.pending = false) ∧
    (let s := testSnap (fun w => { w with held := true, pending := true, since := s0.clock + 1, missed := 0xFFFFFFFE }) id
     s.dev.snap.since ≠ s.clock ∧ s.dev.snap.missed ≠ 0xFFFFFFFF) ∧
    (let s := testSnap id fun w => { w with held := true, pending := true, since := s0.clock + 1 }
     (s.part? 0).any (fun x => x.snap.held && x.snap.pending && x.snap.since != s.clock && x.snap.missed != 0xFFFFFFFF &&
       s.parts.filter (fun y => y.id == 0) == [x]) = true ∧ s.dev.snap.pending = false ∧ ∀ y ∈ s.parts, y.id ≠ 0 → y.snap.pending = false) := by decide +kernel

/-- The last register of partition 0's core 0, one beyond it, and a core of another cluster. -/
theorem test_meets_Snapshots_window :
    let s := testSnap id fun w => { w with selector := 0x02000000 }
    let sel := (snapWindow s 0).selector
    let kind := (sel.extractLsb' 24 8).toNat
    (kind, (sel.extractLsb' 0 16).toNat) ∈ snapUnits s 0 ∧ snapRegs kind - 1 < snapRegs kind ∧ 0 < snapRegs kind ∧ snapRegs kind < 128 ∧
      (kind, 143) ∉ snapUnits s 0 := by decide +kernel

/-! #### Steps -/

/-- NOP at the fragment's program counter. -/
def testStep : State := { testState testGroup with agenda := [.issue 0 0 []], cur := none }

theorem test_meets_StepRunsDecoded :
    issueOrder (beginTurn testStep) (readyFrags (beginTurn testStep) 0 0 []) = [(3, 5)] ∧ (beginTurn testStep).group? 3 = some testGroup ∧
      testGroup.frag? 5 = some testFrag ∧
      (match translate (beginTurn testStep) ((beginTurn testStep).rightsOf testGroup) none .fetch testFrag.pc 0 with
        | .loc l tier leaf => tier == 0 && !(refusedRemote l) && !(broken (beginTurn testStep) 0 l) &&
            reads [BitVec.ofNat 32 (natOfBytes (readLocs testStep {} l 4))] .nop &&
            (match Machine.exec .nop { useLeaves (beginTurn testStep) 0 [.loc l tier leaf] false with cur := some (3, 5) } with
              | .next t => !(wasHeld t 3 5)
              | _ => false)
        | _ => false) = true ∧
      (match fetchWords testGroup testFrag 3 [] (beginTurn testStep) with | .ok (_, ws) => reads ws .nop | _ => false) = true := by decide +kernel

/-- An event at the head of the agenda. -/
theorem test_meets_StepRunsDecoded_event : isEvent .snapin = true ∧
    (match Machine.exec .snapin { beginTurn { testStep with agenda := [.event .snapin] } with cur := none } with | .next _ => true | _ => false) = true := by
  decide +kernel

/-- A state with memory in its canonical form steps. -/
theorem test_meets_MemoryKept : memoryOk testStep ∧ (match step testStep with | .next _ => true | _ => false) = true := by decide +kernel

theorem test_meets_RoundTrip : Instr.isEncoded (.vmul (some { guard := 15, psc := 31 }) 127 0 127) = true ∧
    Instr.wellFormed (.vmul (some { guard := 15, psc := 31 }) 127 0 127) = true ∧
    reads (encode (.vmul (some { guard := 15, psc := 31 }) 127 0 127)) (.vmul (some { guard := 15, psc := 31 }) 127 0 127) = true := by decide +kernel


/-! ### Operations that several units share -/

/-- The cluster of number h mod C counts a partition's clusters in ascending order, however they were assigned (01 R10; 11 R280). -/
theorem test_home_order : atRank [5, 3] 0 = some 3 ∧ atRank [5, 3] 1 = some 5 := by decide +kernel

/-- A pad of p6 is written with zeros above its six bits (04 R104). -/
theorem test_pad_p6 :
    let r := parseShape (bytesOfNat 64 (0x08 * 2 ^ 10 + 0xC5 * 2 ^ 32))
    r.elem = .p6 ∧ r.padCode = 5 := by decide +kernel

/-- A plane block of -0.99 takes 7/8 below its scale, not -1, and what it then is, is what it stays (04 R109, R118). -/
theorem test_quant_planes : let x : Num := .fin true 127 0
    let b := quantBlock (.plane 1) 0 [x.scale (-7)]
    toSigned 4 (b.2.headD 0) = -7 ∧ quantBlock (.plane 1) 0 [((Elem.plane 1).value (b.2.headD 0)).scale ((b.1 : Int) - 127)] = b := by decide +kernel

/-- Four lanes that store a word each into a word with an error replace it together; three do not (08 R215, R224). -/
theorem test_store_covers : ∀ n ∈ [3, 4],
    let s := { testState testGroup with memErr := [0x800] }
    let ps : List Piece := (List.range n).map fun i => { loc := .mem (0x8000 + 4 * i), addr := 0, bytes := [1, 2, 3, 4], mask := [] }
    let t := storeAll s 3 0 0 0 1 ps
    t.memErr = (if n = 4 then [] else [0x800]) ∧ readKey t 0x8000 = (if n = 4 then 1 else readKey s 0x8000) := by decide +kernel

/-- A feed that runs keeps what a plane's commit unit replaces, and sees it; memory has the new bytes (08 R233; DEDUCED,
notes/assumptions/109.md). -/
theorem test_plane_past :
    let s := modFeeder (placeBytes (testState testGroup) (.mem 0x8000) [7]) 0 0 fun q => q.keeps true
    let t := storeAll s 3 0 0 0 1 [{ loc := .mem 0x8000, addr := 0, bytes := List.replicate 16 9, mask := [], plane := true }]
    readKey t 0x8000 = 9 ∧ ((feeder? t 0 0).any fun q => readLoc t { past := q.past.getD [] } (.mem 0x8000) == 7) = true := by decide +kernel

/-- A wait that a release of quantum 4 ends moves its own fragment, and no other (17 R405). -/
theorem test_wake_one :
    let g := { testGroup with frags := [testFrag, { testFrag with id := 77 }] }
    (g.wake 4 fun f => f.id == 77).frags.map Frag.after = [0, 4] := by decide +kernel

/-- A grid's number that was one of a retired grid is that of a grid that has not retired (05 R127, R141). -/
theorem test_number_again : ∀ t ∈ (testState2 testGroup2).teams, (({ t with retired := [4, 5] } : Team).launch 5).retired = [4] := by decide +kernel
end Sys2Proof.Machine
end

section
/-!
SUPPORT. The narrow-format instructions (09 R238 to R247): the unit of each passes the checks of its slot, and writes the lanes of its row.
-/

namespace Sys2Proof.Machine.Narrow

/-! ### What their units share -/

/-! A unit is issued with the state and the group that it reads. -/

theorem ctxOf_s (s : State) (g : Group) (f : Frag) (n : Nat) : (ctxOf s g f n).s = s := rfl
theorem ctxOf_g (s : State) (g : Group) (f : Frag) (n : Nat) : (ctxOf s g f n).g = g := rfl

/-- The lanes that a unit writes are those of its fragment where the guard holds (03 R77). -/
theorem activeLanes_ctxOf (s : State) (g : Group) (f : Frag) (n : Nat) (px : Option Modw) :
    activeLanes (ctxOf s g f n) px = lanesOf (activeOf g f px) := by
  have guard : ∀ p : Word, (p ^^^ if (mw px).gneg then 0xFFFFFFFF#32 else 0) = if (mw px).gneg then ~~~p else p := by
    intro p
    split
    · exact BitVec.xor_allOnes
    · exact BitVec.xor_zero
  simp only [activeLanes, active, activeOf, ctxOf, guard]

theorem pow2_eq_two_pow (k : Nat) : pow2 k = 2 ^ k := Nat.one_shiftLeft k

/-- A slot that holds a format its instruction accepts raises no FMTSLOT (09 R236). -/
theorem slotCheck_eq_none {w : Word} {ok : Elem → Nat → Bool} {F : Elem} (hF : slotElem w = some F) (hok : ok F (slotScale w) = true) :
    slotCheck w ok = none := by
  simp only [slotCheck, hF, hok, if_true]

theorem packCount_of_packs {w : Word} {F : Elem} (hF : slotElem w = some F) (hp : packs F = true) : packCount w = 32 / F.bits := by
  simp only [packCount, hF, hp, if_true]

/-- Elements written to a register or a pair change vector registers only. -/
theorem with64_eq (g : Group) (w : BitVec 1) (r : Nat) (ls : List Nat) (x : Nat → Nat) : ∃ v, with64 g w r ls x = { g with v := v } := by
  unfold with64
  split
  · exact g.setLanes64_eq ..
  · exact g.setLanes_eq ..

/-- So do lanes written to several registers in turn. -/
theorem foldl_setLanes_eq (g : Group) (ks ls : List Nat) (r : Nat → Nat) (x : Nat → Nat → Word) :
    ∃ v, ks.foldl (fun g1 k => g1.setLanes (r k) ls (x k)) g = { g with v := v } := by
  induction ks generalizing g with
  | nil => exact ⟨g.v, rfl⟩
  | cons k ks ih =>
    obtain ⟨v1, h1⟩ := g.setLanes_eq (r k) ls (x k)
    obtain ⟨v, hv⟩ := ih { g with v := v1 }
    exact ⟨v, by rw [List.foldl_cons, h1, hv]⟩

/-- The registers of an element are those of its width (07 R196). -/
theorem elemRegs_eq (c : Ctx) (w : BitVec 1) (x : BitVec 7) : elemRegs c w x = regs64 w (c.g.abs x) := by
  unfold elemRegs regs64
  split <;> rfl

/-- The unit of VUNPK and VPACK on a format that they accept touches the P registers, the packed word and the scale operand (09 R240). -/
theorem packSpec_eq {c : Ctx} {n : BitVec 3} {F : Elem} {ok : Elem → Nat → Bool} (hF : slotElem (slotWord c.s c.g n.toNat) = some F)
    (hp : packs F = true) (hok : ok F (slotScale (slotWord c.s c.g n.toNat)) = true) (px : Option Modw) (wide one b : BitVec 7) :
    packSpec px wide one b n ok c =
      { words := unitWords px
        vs := narrowRow.many (c.g.abs wide) (32 / F.bits) ++ c.g.abs one :: narrowRow.scaleReg c.g (slotWord c.s c.g n.toNat) b } := by
  simp only [packSpec, packCount_of_packs hF hp, slotCheck_eq_none hF hok, List.append_assoc]
  rfl

/-- An instruction completes with its row where its unit touches vector registers of the row alone, passes the check of its slot, and
its body leaves the group of the row, which differs in vector registers only. -/
theorem completes_of_vectors {i : Instr} {s : State} {g : Group} {f : Frag} {r : Row} {spec : Ctx → UnitSpec} {body : Ctx → UnitRes}
    {vs : List Nat} {slot : Option (Byte × Dword)} (hx : exec i s = runUnit s spec body) (h : Issues s g f) (hc : Clear g f r.vs r.ss)
    (hu : spec { s := s, g := g, f := f, next := f.pc } = { words := r.words, vs := vs, slot := slot }) (hslot : slot = none)
    (hv : ∀ n ∈ vs, n ∈ r.vs) (hb : body (ctxOf s g f r.words) = doneG (ctxOf s g f r.words) r.after)
    (ha : ∃ v, r.after = { g with v := v }) : Completes i s g f r.words (s.setGroup r.after) := by
  obtain ⟨v, ha⟩ := ha
  subst hslot
  have ready : Deed.Ready { words := r.words, vs := r.vs, ss := r.ss, after := s.setGroup r.after } s g f :=
    ⟨hc, .inl rfl, nofun, nofun⟩
  exact deed_doneG (e := { words := r.words, vs := r.vs, ss := r.ss, after := s.setGroup r.after }) hx h ready
    ⟨vs, [], hu, hv, nofun⟩ rfl rfl hb rfl (by rw [ha]) (by rw [ha])

/-! ### Each instruction -/

section
variable {s : State} {g : Group} {f : Frag} {r : Row} {px : Option Modw} {d a b : BitVec 7} {n : BitVec 3}

/-- VCVT (R238). -/
theorem vcvt_completes {k : BitVec 7} (hr : narrowRow s g f (.vcvt px d a k) = some r) (h : Issues s g f) (hc : Clear g f r.vs r.ss) :
    Completes (.vcvt px d a k) s g f r.words (s.setGroup r.after) := by
  cases hr
  refine completes_of_vectors rfl h hc rfl rfl ?_ ?_ (with64_eq ..)
  · simp only [elemRegs_eq]
    exact fun _ => id
  · simp only [activeLanes_ctxOf]
    rfl

/-- VDOT (R244). -/
theorem vdot_completes {t : BitVec 4} (hr : narrowRow s g f (.vdot px d a b t) = some r) (h : Issues s g f) (hc : Clear g f r.vs r.ss) :
    Completes (.vdot px d a b t) s g f r.words (s.setGroup r.after) := by
  cases hr
  refine completes_of_vectors rfl h hc rfl rfl (fun _ => id) ?_ (Group.setLanes_eq ..)
  simp only [activeLanes_ctxOf]
  rfl

/-- VUNPK (R241). -/
theorem vunpk_completes (hr : narrowRow s g f (.vunpk px d a b n) = some r) (h : Issues s g f) (hc : Clear g f r.vs r.ss) :
    Completes (.vunpk px d a b n) s g f r.words (s.setGroup r.after) := by
  cases hF : slotElem (slotWord s g n.toNat) with
  | none => simp [narrowRow, hF] at hr
  | some F =>
    simp only [narrowRow, hF, Option.ite_none_right_eq_some, Option.some.injEq] at hr
    obtain ⟨hp, rfl⟩ := hr
    refine completes_of_vectors rfl h hc (packSpec_eq hF hp hp ..) rfl (fun _ => id) ?_ (foldl_setLanes_eq ..)
    simp only [ctxOf_s, ctxOf_g, hF, activeLanes_ctxOf, packCount_of_packs hF hp]
    rfl

/-- VPACK (R242). -/
theorem vpack_completes (hr : narrowRow s g f (.vpack px d a b n) = some r) (h : Issues s g f) (hc : Clear g f r.vs r.ss) :
    Completes (.vpack px d a b n) s g f r.words (s.setGroup r.after) := by
  cases hF : slotElem (slotWord s g n.toNat) with
  | none => simp [narrowRow, hF] at hr
  | some F =>
    simp only [narrowRow, hF, Option.ite_none_right_eq_some, Option.some.injEq] at hr
    obtain ⟨⟨hp, hscale⟩, rfl⟩ := hr
    refine completes_of_vectors rfl h hc (packSpec_eq hF hp (by simp [hp, hscale]) ..) rfl (fun _ hm => ?_) ?_ (Group.setLanes_eq ..)
    · exact List.perm_middle.mem_iff.mp hm
    · simp only [ctxOf_s, ctxOf_g, hF, activeLanes_ctxOf, packCount_of_packs hF hp, pow2_eq_two_pow]
      rfl

/-- The element form of VQNT (R246). -/
theorem vqnt_completes (hr : narrowRow s g f (.vqnt px d a b n) = some r) (h : Issues s g f) (hc : Clear g f r.vs r.ss) :
    Completes (.vqnt px d a b n) s g f r.words (s.setGroup r.after) := by
  cases hF : slotElem (slotWord s g n.toNat) with
  | none => simp [narrowRow, hF] at hr
  | some F =>
    simp only [narrowRow, hF, Option.ite_none_right_eq_some, Option.some.injEq] at hr
    obtain ⟨hq, rfl⟩ := hr
    refine completes_of_vectors rfl h hc rfl (slotCheck_eq_none hF (by simpa using hq)) (fun _ => id) ?_ (Group.setLanes_eq ..)
    simp only [ctxOf_s, ctxOf_g, hF, activeLanes_ctxOf]
    rfl

/-- The scale form of VQNT (R247). -/
theorem vqntScale_completes (hr : narrowRow s g f (.vqntScale px d a n) = some r) (h : Issues s g f) (hc : Clear g f r.vs r.ss) :
    Completes (.vqntScale px d a n) s g f r.words (s.setGroup r.after) := by
  cases hF : slotElem (slotWord s g n.toNat) with
  | none => simp [narrowRow, hF] at hr
  | some F =>
    simp only [narrowRow, hF, Option.ite_none_right_eq_some, Option.some.injEq] at hr
    obtain ⟨hq, rfl⟩ := hr
    refine completes_of_vectors rfl h hc rfl (slotCheck_eq_none hF (by simpa using hq)) (fun _ => id) ?_ (Group.setLanes_eq ..)
    simp only [ctxOf_s, ctxOf_g, hF, activeLanes_ctxOf]
    rfl

end

/-- Settles O3: each of the six instructions with a row completes by its own lemma, and no other instruction has a row. -/
theorem narrowResults : Obligations.NarrowResults := by
  intro i s g f r hr h hc
  cases i with
  | vcvt px d a k => exact vcvt_completes hr h hc
  | vunpk px d a b n => exact vunpk_completes hr h hc
  | vpack px d a b n => exact vpack_completes hr h hc
  | vdot px d a b t => exact vdot_completes hr h hc
  | vqnt px d a b n => exact vqnt_completes hr h hc
  | vqntScale px d a n => exact vqntScale_completes hr h hc
  | _ => cases hr

end Sys2Proof.Machine.Narrow
end
